-- ==== Sys2Proof/Word.lean ====
section
/-! DEFINITION. The words of the block, and the plain data an instruction's operands are made of:
the six sample bytes and the oracle's answers to a bus transaction. -/

namespace Sys2Proof

/-- One byte of a bus transaction. -/
abbrev Byte := BitVec 8

/-- The host's data width, 32 bits (R8). -/
abbrev Word := BitVec 32

/-- RawSample, "exactly 6 unsigned 8-bit values returned by a single bus read" (R15, R89). -/
structure Sample where
  d0 : Byte
  d1 : Byte
  d2 : Byte
  d3 : Byte
  d4 : Byte
  d5 : Byte
  deriving DecidableEq, Repr, Inhabited

/-- The sample in index order, the order of its bytes on the wire (R65). -/
def Sample.bytes (d : Sample) : List Byte := [d.d0, d.d1, d.d2, d.d3, d.d4, d.d5]

/-- Why a bus transaction failed (R33, R85). -/
inductive Cause where
  /-- No acknowledge to the address byte. -/
  | addrNack
  /-- No acknowledge to a data byte of a write. -/
  | dataNack
  /-- Any other bus failure the master detects. -/
  | busError
  deriving DecidableEq, Repr

/-- The oracle's answer to a `BusWrite` (R131). No answer at all is no instruction: the transaction stays in flight. -/
inductive WriteAnswer where
  | ok
  | err (c : Cause)
  deriving DecidableEq, Repr

/-- The oracle's answer to a one-byte `BusRead` (R132). -/
inductive StatusAnswer where
  | ok (s : Byte)
  | err (c : Cause)
  deriving DecidableEq, Repr

/-- The oracle's answer to a six-byte `BusRead` (R132). -/
inductive SampleAnswer where
  | ok (d : Sample)
  | err (c : Cause)
  deriving DecidableEq, Repr

end Sys2Proof
end

