-- ==== Sys2Proof/Config.lean ====
section
/-! DEFINITION. The constants the block hardwires (R7), the open parameters (R9) and the free values.
None of them is state (R14). -/

namespace Sys2Proof

/-- DEV_ADDR, the sensor's 7-bit address (R7). -/
def Config.devAddr : BitVec 7 := 0x38#7

/-- CMD_SOFT_RESET (R7). -/
def Config.cmdSoftReset : Byte := 0xBA#8

/-- CMD_TRIGGER, first byte first (R7). -/
def Config.cmdTrigger : List Byte := [0xAC#8, 0x33#8, 0x00#8]

/-- MASK_CAL, status bit 3 (R7). -/
def Config.maskCal : Byte := 0x08#8

/-- MASK_BUSY, status bit 7 (R7). -/
def Config.maskBusy : Byte := 0x80#8

/-- T_RESET_SETTLE in milliseconds (R7). -/
def Config.resetSettleMs : Nat := 20

/-- T_TRIGGER_SETTLE in milliseconds (R7). -/
def Config.triggerSettleMs : Nat := 80

/-- T_POLL in milliseconds (R7). -/
def Config.pollMs : Nat := 10

/-- MAX_CAL_POLLS (R7), in the width of its counter (R35). -/
def Config.maxCalPolls : BitVec 4 := 10#4

/-- MAX_BUSY_POLLS (R7), in the width of its counter (R35). -/
def Config.maxBusyPolls : BitVec 4 := 10#4

/-- HUM_SCALE (R7). -/
def Config.humScale : Nat := 100

/-- TEMP_SCALE (R7). -/
def Config.tempScale : Nat := 200

/-- TEMP_OFFSET (R7). -/
def Config.tempOffset : Nat := 50

/-- 2^CODE_WIDTH, the denominator of both conversions (R7, R174, R175). -/
def Config.codeRange : Nat := 2 ^ 20

/-- OPEN: the host address of register offset 0x00 (R9). No rule depends on its value. -/
opaque Config.base : Nat

/-- OPEN: the frequency of the block's clock (R9). No rule depends on its value. -/
opaque Config.clkHz : Nat

/-- OPEN: the SCL frequency (R9). No rule depends on its value. -/
opaque Config.sclHz : Nat

/-- Free value: what the capture buffer holds after a block reset or a failed sample read, which the spec leaves
unspecified (R47, U5; log 5). It has no body, so nothing can be proved of it. -/
opaque Config.freeSample : Nat → Sample

end Sys2Proof
end

