-- ==== Sys2Proof/Machine/Operands.lean ====
section
/-! DEFINITION. Operand forms: how words split into bytes and fields, the frames' bytes, and the pure datapath
functions of 42_extract_convert.md. Nothing here reads the state. -/

namespace Sys2Proof.Machine

/-! ### Byte order -/

/-- The four bytes of a host word, lowest offset first: the window is little-endian (R63). -/
def leBytes (v : Word) : List Byte :=
  [v.extractLsb' 0 8, v.extractLsb' 8 8, v.extractLsb' 16 8, v.extractLsb' 24 8]

/-- The host word of four bytes, lowest offset first (R63). -/
def leWord (b0 b1 b2 b3 : Byte) : Word := b3 ++ b2 ++ b1 ++ b0

/-- The `n` bytes of a number, most significant first: the order in which the table writes a frame's pattern (R86 to R89). -/
def beBytes : Nat → Nat → List Byte
  | 0, _ => []
  | n + 1, w => BitVec.ofNat 8 (w / 2 ^ (8 * n)) :: beBytes n w

/-! ### Frames -/

/-- The address byte `{addr7, rw}` of a write, rw = 0 (R84). -/
def writeAddrByte : Byte := Config.devAddr ++ 0#1

/-- The address byte `{addr7, rw}` of a read, rw = 1 (R84). -/
def readAddrByte : Byte := Config.devAddr ++ 1#1

/-- The code of a cause in ERROR.CAUSE (R33). -/
def causeCode : Cause → BitVec 2
  | .addrNack => 1#2
  | .dataNack => 2#2
  | .busError => 3#2

/-! ### Field extractor -/

/-- `Extract(d1, d2, d3, d4, d5)`: F40 = {d1, d2, d3, d4, d5} (R170). -/
def extract (d1 d2 d3 d4 d5 : Byte) : BitVec 40 := d1 ++ d2 ++ d3 ++ d4 ++ d5

/-- `ExtractHum(F40)`: hc = F40[39:20] (R172). -/
def extractHum (f40 : BitVec 40) : BitVec 20 := f40.extractLsb' 20 20

/-- `ExtractTemp(F40)`: tc = F40[19:0] (R173). -/
def extractTemp (f40 : BitVec 40) : BitVec 20 := f40.extractLsb' 0 20

/-! ### Converter: exact values are numerators over 2^20 -/

/-- `ConvHum(hc)` is hc * 100 / 2^20 exactly (R174); this is its numerator. -/
def convHum (hc : BitVec 20) : Int := (hc.toNat : Int) * Config.humScale

/-- `ConvTemp(tc)` is tc * 200 / 2^20 - 50 exactly (R175); this is its numerator, tc * 200 - 50 * 2^20. -/
def convTemp (tc : BitVec 20) : Int :=
  (tc.toNat : Int) * Config.tempScale - Config.tempOffset * Config.codeRange

/-- `F64(M)`: the binary64 encoding of M / 2^20 (R177): sign, exponent p - 20 + 1023 and fraction of A = |M|, where
p is the index of A's highest set bit; zero is +0.0. -/
def f64 (m : Int) : BitVec 64 :=
  if m = 0 then 0#64
  else
    BitVec.ofBool (decide (m < 0)) ++ BitVec.ofNat 11 (m.natAbs.log2 + 1003) ++
      BitVec.ofNat 52 (m.natAbs * 2 ^ (52 - m.natAbs.log2))

/-- `ConvHum64(hc) = F64(hc * 100)` (R178). -/
def convHum64 (hc : BitVec 20) : BitVec 64 := f64 (convHum hc)

/-- `ConvTemp64(tc) = F64(tc * 200 - 50 * 2^20)` (R178). -/
def convTemp64 (tc : BitVec 20) : BitVec 64 := f64 (convTemp tc)

/-! ### Reading an operand back from a result

The table gives F64, CONV_HUM64 and CONV_TEMP64 the layout of their result as their pattern (log 10). -/

/-- The M with F64(M) = w, where there is one (R177). -/
def f64Operand (w : BitVec 64) : Option Int :=
  let e := (w.extractLsb' 52 11).toNat
  let full := 2 ^ 52 + (w.extractLsb' 0 52).toNat
  let unit := 2 ^ (1055 - e)
  if w = 0#64 then some 0
  else if 1003 ≤ e ∧ e ≤ 1054 ∧ full % unit = 0 then
    some (if w.getLsbD 63 then -((full / unit : Nat) : Int) else ((full / unit : Nat) : Int))
  else none

/-- The 20-bit code of a scaled numerator: `n` must be `code * scale` with code below 2^20 (R178). -/
def codeOfScaled (n : Int) (scale : Nat) : Option (BitVec 20) :=
  if 0 ≤ n ∧ n % scale = 0 ∧ n / scale < 2 ^ 20 then some (BitVec.ofNat 20 (n / scale).toNat) else none

/-- The hc with ConvHum64(hc) = w, where there is one (R178). -/
def convHum64Operand (w : BitVec 64) : Option (BitVec 20) :=
  (f64Operand w).bind fun m => codeOfScaled m Config.humScale

/-- The tc with ConvTemp64(tc) = w, where there is one (R178). -/
def convTemp64Operand (w : BitVec 64) : Option (BitVec 20) :=
  (f64Operand w).bind fun m => codeOfScaled (m + Config.tempOffset * Config.codeRange) Config.tempScale

/-! ### Values -/

/-- The rational a numerator stands for (R174, R175, R177). -/
def dyadic (m : Int) : ℚ := m / 2 ^ 20

/-- The rational a binary64 word with a normal number or +0.0 stands for (R177's field layout). -/
def binary64Value (w : BitVec 64) : ℚ :=
  if w = 0#64 then 0
  else (if w.getLsbD 63 then -1 else 1) * (1 + (w.extractLsb' 0 52).toNat / 2 ^ 52) *
    (2 : ℚ) ^ (((w.extractLsb' 52 11).toNat : Int) - 1023)

end Sys2Proof.Machine
end

