-- ==== Sys2Proof/Syntax.lean ====
section
/-! DEFINITION. The instructions: one constructor per row of spec/opcode_table.json. Bits a row ignores are carried
as operands, so that a word and its instruction determine each other. -/

namespace Sys2Proof

/-- The block has no processor: its instructions are host commands, bus transactions and datapath functions (R2). -/
inductive Instr where
  /-- NOP: a write to CTRL with CMD = 0 (R102); `ign` is v[31:3]. -/
  | nop (ign : BitVec 29)
  /-- INIT: CMD = 1 (R103). -/
  | init (ign : BitVec 29)
  /-- MEASURE: CMD = 2 (R104). -/
  | measure (ign : BitVec 29)
  /-- READ: CMD = 3 (R105). -/
  | read (ign : BitVec 29)
  /-- RSVD4: the reserved code 4 (R106). -/
  | rsvd4 (ign : BitVec 29)
  /-- RSVD5: the reserved code 5 (R106). -/
  | rsvd5 (ign : BitVec 29)
  /-- RSVD6: the reserved code 6 (R106). -/
  | rsvd6 (ign : BitVec 29)
  /-- RSVD7: the reserved code 7 (R106). -/
  | rsvd7 (ign : BitVec 29)
  /-- ACK_DONE: a write to STATUS with bit 1 set (R111); `clrRej` is v[2], `ign0` is v[0], `ign` is v[31:3]. -/
  | ackDone (clrRej ign0 : Bool) (ign : BitVec 29)
  /-- ACK_REJ: a write to STATUS with bit 2 set (R111); `clrDone` is v[1]. A word with both bits set is
  decoded as ACK_DONE (log 16). -/
  | ackRej (clrDone ign0 : Bool) (ign : BitVec 29)
  /-- WR_INT_EN: a write to INT_EN (R112); `ign` is v[31:2]. -/
  | wrIntEn (doneIe rejIe : Bool) (ign : BitVec 30)
  /-- WR_SOFTRESET: `BusWrite(0x38, [0xBA])` with its answer (R86, R131). -/
  | wrSoftreset (a : WriteAnswer)
  /-- WR_TRIGGER: `BusWrite(0x38, [0xAC, 0x33, 0x00])` with its answer (R87, R131). -/
  | wrTrigger (a : WriteAnswer)
  /-- RD_STATUS: `BusRead(0x38, 1)` with its answer (R88, R132). -/
  | rdStatus (a : StatusAnswer)
  /-- RD_SAMPLE: `BusRead(0x38, 6)` with its answer (R89, R132). -/
  | rdSample (a : SampleAnswer)
  /-- EXTRACT: the 40-bit field of sample bytes 1 to 5 (R170). -/
  | extract (d1 d2 d3 d4 d5 : Byte)
  /-- EXTRACT_HUM: the humidity code of a field (R172). -/
  | extractHum (f40 : BitVec 40)
  /-- EXTRACT_TEMP: the temperature code of a field (R173). -/
  | extractTemp (f40 : BitVec 40)
  /-- CONV_HUM: the exact humidity of a code (R174). -/
  | convHum (hc : BitVec 20)
  /-- CONV_TEMP: the exact temperature of a code (R175). -/
  | convTemp (tc : BitVec 20)
  /-- F64: the binary64 encoding of m / 2^20 (R177). -/
  | f64 (m : Int)
  /-- CONV_HUM64: the binary64 humidity of a code (R178). -/
  | convHum64 (hc : BitVec 20)
  /-- CONV_TEMP64: the binary64 temperature of a code (R178). -/
  | convTemp64 (tc : BitVec 20)
  deriving DecidableEq, Repr

end Sys2Proof
end

