-- ==== Sys2Proof/WellFormed.lean ====
section
/-! DEFINITION. Which instructions the spec's encodings admit. -/

namespace Sys2Proof

/-- "`Err(DATA_NACK)` is never the answer to a read" (R132). -/
def Cause.onRead : Cause → Bool
  | .addrNack => true
  | .dataNack => false
  | .busError => true

/-- The checks: a read is never answered by DATA_NACK (R132); F64 takes M with |M| < 2^52 (R177); a STATUS write with
both W1C bits set is written as ACK_DONE (log 16). Every other operand is admitted at every value. -/
def Instr.wellFormed : Instr → Bool
  | .nop _ => true
  | .init _ => true
  | .measure _ => true
  | .read _ => true
  | .rsvd4 _ => true
  | .rsvd5 _ => true
  | .rsvd6 _ => true
  | .rsvd7 _ => true
  | .ackDone _ _ _ => true
  | .ackRej clrDone _ _ => !clrDone
  | .wrIntEn _ _ _ => true
  | .wrSoftreset _ => true
  | .wrTrigger _ => true
  | .rdStatus (.ok _) => true
  | .rdStatus (.err c) => c.onRead
  | .rdSample (.ok _) => true
  | .rdSample (.err c) => c.onRead
  | .extract _ _ _ _ _ => true
  | .extractHum _ => true
  | .extractTemp _ => true
  | .convHum _ => true
  | .convTemp _ => true
  | .f64 m => decide (m.natAbs < 2 ^ 52)
  | .convHum64 _ => true
  | .convTemp64 _ => true

end Sys2Proof
end

