-- ==== Sys2Proof/Decode.lean ====
section
/-! DEFINITION. The decoder, total on any bytes and rejecting by name, and the encoder, both written from
30_encoding.md and the opcode table. A format fixes which rows its bytes can be: the same 32 bits are a command at
CTRL, an acknowledge at STATUS and an enable mask at INT_EN. -/

namespace Sys2Proof

/-- Which datapath operation the commit invokes; a DATAPATH row's bits do not name it (R148). -/
inductive DatapathOp where
  | extract
  | extractHum
  | extractTemp
  | convHum
  | convTemp
  | f64
  | convHum64
  | convTemp64
  deriving DecidableEq, Repr

/-- The "format" column of the opcode table. -/
inductive Format where
  /-- HCMD, a host word written to CTRL (R80). -/
  | hcmd
  /-- HSTW, a host word written to STATUS (R83). -/
  | hstw
  /-- HIEW, a host word written to INT_EN (R83). -/
  | hiew
  /-- I2C_WRITE, an answered write transaction (R86, R87). -/
  | i2cWrite
  /-- I2C_READ, an answered read transaction (R88, R89). -/
  | i2cRead
  /-- DATAPATH, an operation of the commit (R148). -/
  | datapath (op : DatapathOp)
  deriving DecidableEq, Repr

/-- Why bytes are no instruction. -/
inductive DecodeError where
  /-- The byte count is not one the format has (R91). -/
  | wrongLength
  /-- The bytes are none of the four frames the block emits (R90). -/
  | foreignFrame
  /-- A STATUS word with neither bit 1 nor bit 2 set: no row of the table, and a write without effect (R111). -/
  | noAcknowledge
  /-- The outcome byte is none of Ok, ADDR_NACK, DATA_NACK, BUS_ERROR (R131). -/
  | unknownOutcome
  /-- DATA_NACK as the answer to a read (R132). -/
  | dataNackOnRead
  /-- A failed read with device bytes: an `Err` answer carries none (R132). -/
  | bytesAfterError
  /-- Bits above a 20-bit code that are not zero (R174, R175). -/
  | bitsAboveCode
  /-- A binary64 word that is the operation's result for no operand (R177, R178). -/
  | notAResult
  deriving DecidableEq, Repr

/-- What the decoder answers. -/
inductive Decoded where
  | ok (i : Instr)
  | rejected (e : DecodeError)
  deriving DecidableEq, Repr

/-! ### Host words -/

/-- HCMD: CMD = v[2:0] "and nothing else" (R80, R81). -/
def decodeCommand (v : Word) : Instr :=
  let ign := v.extractLsb' 3 29
  match (v.extractLsb' 0 3).toNat with
  | 0 => .nop ign
  | 1 => .init ign
  | 2 => .measure ign
  | 3 => .read ign
  | 4 => .rsvd4 ign
  | 5 => .rsvd5 ign
  | 6 => .rsvd6 ign
  | _ => .rsvd7 ign

/-- HSTW: bit 1 clears DONE, bit 2 clears REJ (R83, R111). -/
def decodeStatusWrite (v : Word) : Decoded :=
  if v.getLsbD 1 then .ok (.ackDone (v.getLsbD 2) (v.getLsbD 0) (v.extractLsb' 3 29))
  else if v.getLsbD 2 then .ok (.ackRej false (v.getLsbD 0) (v.extractLsb' 3 29))
  else .rejected .noAcknowledge

/-- HIEW: bit 0 is DONE_IE, bit 1 is REJ_IE (R83, R112). -/
def decodeIntEn (v : Word) : Instr :=
  .wrIntEn (v.getLsbD 0) (v.getLsbD 1) (v.extractLsb' 2 30)

/-! ### Answered transactions

The bytes are the outcome byte, then the table's pattern, first byte first. The outcome byte is the model's (log 6): it
stands above the table's bits, 0 for Ok and the code of R33 for an error. -/

/-- The outcome byte of an error. -/
def outcomeByte (c : Cause) : Byte := (Machine.causeCode c).setWidth 8

/-- The outcome of a write. -/
def decodeWriteOutcome (o : Byte) (mk : WriteAnswer → Instr) : Decoded :=
  if o = 0#8 then .ok (mk .ok)
  else if o = outcomeByte .addrNack then .ok (mk (.err .addrNack))
  else if o = outcomeByte .dataNack then .ok (mk (.err .dataNack))
  else if o = outcomeByte .busError then .ok (mk (.err .busError))
  else .rejected .unknownOutcome

/-- The outcome of a read; `blank` says that no device byte stands in the record. -/
def decodeReadOutcome (o : Byte) (blank : Bool) (good : Instr) (bad : Cause → Instr) : Decoded :=
  if o = 0#8 then .ok good
  else if o = outcomeByte .dataNack then .rejected .dataNackOnRead
  else if o = outcomeByte .addrNack then (if blank then .ok (bad .addrNack) else .rejected .bytesAfterError)
  else if o = outcomeByte .busError then (if blank then .ok (bad .busError) else .rejected .bytesAfterError)
  else .rejected .unknownOutcome

/-- I2C_WRITE: WR_SOFTRESET is 70 BA (R86) and WR_TRIGGER is 70 AC 33 00 (R87). -/
def decodeWriteFrame : List Byte → Decoded
  | [o, a, b] =>
    if a = Machine.writeAddrByte ∧ b = Config.cmdSoftReset then decodeWriteOutcome o .wrSoftreset
    else .rejected .foreignFrame
  | [o, a, b0, b1, b2] =>
    if a = Machine.writeAddrByte ∧ [b0, b1, b2] = Config.cmdTrigger then decodeWriteOutcome o .wrTrigger
    else .rejected .foreignFrame
  | _ => .rejected .wrongLength

/-- I2C_READ: RD_STATUS is 71 and one byte (R88), RD_SAMPLE is 71 and six bytes (R89). -/
def decodeReadFrame : List Byte → Decoded
  | [o, a, s] =>
    if a = Machine.readAddrByte then
      decodeReadOutcome o (s = 0#8) (.rdStatus (.ok s)) fun c => .rdStatus (.err c)
    else .rejected .foreignFrame
  | [o, a, d0, d1, d2, d3, d4, d5] =>
    if a = Machine.readAddrByte then
      decodeReadOutcome o ([d0, d1, d2, d3, d4, d5] = List.replicate 6 0#8) (.rdSample (.ok ⟨d0, d1, d2, d3, d4, d5⟩))
        fun c => .rdSample (.err c)
    else .rejected .foreignFrame
  | _ => .rejected .wrongLength

/-! ### Datapath words: the table's pattern in whole bytes, most significant first -/

/-- A 20-bit code in three bytes, the four bits above it zero (R174, R175). -/
def decodeCode (b0 b1 b2 : Byte) (mk : BitVec 20 → Instr) : Decoded :=
  if b0.extractLsb' 4 4 = 0#4 then .ok (mk (b0.extractLsb' 0 4 ++ b1 ++ b2)) else .rejected .bitsAboveCode

/-- An operand read back from a result (log 10). -/
def decodeResult {α : Type} (operand : Option α) (mk : α → Instr) : Decoded :=
  match operand with
  | some x => .ok (mk x)
  | none => .rejected .notAResult

/-- DATAPATH: the operand fields of the operation's row (R170 to R178). -/
def decodeDatapath : DatapathOp → List Byte → Decoded
  | .extract, [d1, d2, d3, d4, d5] => .ok (.extract d1 d2 d3 d4 d5)
  | .extractHum, [d1, d2, d3, d4, d5] => .ok (.extractHum (d1 ++ d2 ++ d3 ++ d4 ++ d5))
  | .extractTemp, [d1, d2, d3, d4, d5] => .ok (.extractTemp (d1 ++ d2 ++ d3 ++ d4 ++ d5))
  | .convHum, [b0, b1, b2] => decodeCode b0 b1 b2 .convHum
  | .convTemp, [b0, b1, b2] => decodeCode b0 b1 b2 .convTemp
  | .f64, [b0, b1, b2, b3, b4, b5, b6, b7] =>
    decodeResult (Machine.f64Operand (b0 ++ b1 ++ b2 ++ b3 ++ b4 ++ b5 ++ b6 ++ b7)) .f64
  | .convHum64, [b0, b1, b2, b3, b4, b5, b6, b7] =>
    decodeResult (Machine.convHum64Operand (b0 ++ b1 ++ b2 ++ b3 ++ b4 ++ b5 ++ b6 ++ b7)) .convHum64
  | .convTemp64, [b0, b1, b2, b3, b4, b5, b6, b7] =>
    decodeResult (Machine.convTemp64Operand (b0 ++ b1 ++ b2 ++ b3 ++ b4 ++ b5 ++ b6 ++ b7)) .convTemp64
  | _, _ => .rejected .wrongLength

/-- The decoder. -/
def decode : Format → List Byte → Decoded
  | .hcmd, [b0, b1, b2, b3] => .ok (decodeCommand (Machine.leWord b0 b1 b2 b3))
  | .hstw, [b0, b1, b2, b3] => decodeStatusWrite (Machine.leWord b0 b1 b2 b3)
  | .hiew, [b0, b1, b2, b3] => .ok (decodeIntEn (Machine.leWord b0 b1 b2 b3))
  | .i2cWrite, bytes => decodeWriteFrame bytes
  | .i2cRead, bytes => decodeReadFrame bytes
  | .datapath op, bytes => decodeDatapath op bytes
  | _, _ => .rejected .wrongLength

/-! ### The encoder -/

/-- The format of an instruction's row. -/
def formatOf : Instr → Format
  | .nop _ | .init _ | .measure _ | .read _ | .rsvd4 _ | .rsvd5 _ | .rsvd6 _ | .rsvd7 _ => .hcmd
  | .ackDone _ _ _ | .ackRej _ _ _ => .hstw
  | .wrIntEn _ _ _ => .hiew
  | .wrSoftreset _ | .wrTrigger _ => .i2cWrite
  | .rdStatus _ | .rdSample _ => .i2cRead
  | .extract _ _ _ _ _ => .datapath .extract
  | .extractHum _ => .datapath .extractHum
  | .extractTemp _ => .datapath .extractTemp
  | .convHum _ => .datapath .convHum
  | .convTemp _ => .datapath .convTemp
  | .f64 _ => .datapath .f64
  | .convHum64 _ => .datapath .convHum64
  | .convTemp64 _ => .datapath .convTemp64

/-- A command word: CMD in bits 2:0 (R80, R81). -/
def commandWord (cmd : BitVec 3) (ign : BitVec 29) : Word := ign ++ cmd

/-- A STATUS word: bit 1 acknowledges DONE, bit 2 acknowledges REJ (R83). -/
def statusWriteWord (clrDone clrRej ign0 : Bool) (ign : BitVec 29) : Word :=
  ign ++ BitVec.ofBool clrRej ++ BitVec.ofBool clrDone ++ BitVec.ofBool ign0

/-- An INT_EN word (R83). -/
def intEnWriteWord (doneIe rejIe : Bool) (ign : BitVec 30) : Word :=
  ign ++ BitVec.ofBool rejIe ++ BitVec.ofBool doneIe

/-- The outcome byte of a write's answer (log 6). -/
def writeOutcomeByte : WriteAnswer → Byte
  | .ok => 0#8
  | .err c => outcomeByte c

/-- The bytes of an instruction, in the form `decode` reads: host words lowest offset first, transactions as outcome byte
and frame, datapath words most significant byte first. -/
def encode : Instr → List Byte
  | .nop ign => Machine.leBytes (commandWord 0#3 ign)
  | .init ign => Machine.leBytes (commandWord 1#3 ign)
  | .measure ign => Machine.leBytes (commandWord 2#3 ign)
  | .read ign => Machine.leBytes (commandWord 3#3 ign)
  | .rsvd4 ign => Machine.leBytes (commandWord 4#3 ign)
  | .rsvd5 ign => Machine.leBytes (commandWord 5#3 ign)
  | .rsvd6 ign => Machine.leBytes (commandWord 6#3 ign)
  | .rsvd7 ign => Machine.leBytes (commandWord 7#3 ign)
  | .ackDone clrRej ign0 ign => Machine.leBytes (statusWriteWord true clrRej ign0 ign)
  | .ackRej clrDone ign0 ign => Machine.leBytes (statusWriteWord clrDone true ign0 ign)
  | .wrIntEn doneIe rejIe ign => Machine.leBytes (intEnWriteWord doneIe rejIe ign)
  | .wrSoftreset a => [writeOutcomeByte a, Machine.writeAddrByte, Config.cmdSoftReset]
  | .wrTrigger a => [writeOutcomeByte a, Machine.writeAddrByte] ++ Config.cmdTrigger
  | .rdStatus (.ok s) => [0#8, Machine.readAddrByte, s]
  | .rdStatus (.err c) => [outcomeByte c, Machine.readAddrByte, 0#8]
  | .rdSample (.ok d) => [0#8, Machine.readAddrByte] ++ d.bytes
  | .rdSample (.err c) => [outcomeByte c, Machine.readAddrByte] ++ List.replicate 6 0#8
  | .extract d1 d2 d3 d4 d5 => [d1, d2, d3, d4, d5]
  | .extractHum f40 => Machine.beBytes 5 f40.toNat
  | .extractTemp f40 => Machine.beBytes 5 f40.toNat
  | .convHum hc => Machine.beBytes 3 hc.toNat
  | .convTemp tc => Machine.beBytes 3 tc.toNat
  | .f64 m => Machine.beBytes 8 (Machine.f64 m).toNat
  | .convHum64 hc => Machine.beBytes 8 (Machine.convHum64 hc).toNat
  | .convTemp64 tc => Machine.beBytes 8 (Machine.convTemp64 tc).toNat

/-! ### Words as the opcode table numbers them -/

/-- The format and bytes of a table word. The table does not say to which register a host word goes, nor which
datapath operation a pattern without fixed bits is, so rows share words; the reading is the most specific row of that
many bits: an exact frame, else the CTRL command, and for datapath patterns the first row of that width (log 7).
The bits above `nbits`, a transaction's outcome byte among them, are zero. -/
def tableWordBytes (nbits w : Nat) : Format × List Byte :=
  if nbits = 16 then
    (if w / 2 ^ 8 % 2 ^ 8 = Machine.writeAddrByte.toNat then .i2cWrite else .i2cRead, 0#8 :: Machine.beBytes 2 w)
  else if nbits = 32 then
    if (0#8 :: Machine.beBytes 4 w) = encode (.wrTrigger .ok) then (.i2cWrite, 0#8 :: Machine.beBytes 4 w)
    else (.hcmd, Machine.leBytes (BitVec.ofNat 32 w))
  else if nbits = 56 then (.i2cRead, 0#8 :: Machine.beBytes 7 w)
  else if nbits = 40 then (.datapath .extract, Machine.beBytes 5 w)
  else if nbits = 20 ∨ nbits = 24 then (.datapath .convHum, Machine.beBytes 3 w)
  else if nbits = 64 then (.datapath .f64, Machine.beBytes 8 w)
  else (.datapath .extract, [])

/-- The instruction the decoder reads from a word numbered as spec/opcode_table.json numbers it. -/
def decodeTableWord (nbits w : Nat) : Option Instr :=
  match decode (tableWordBytes nbits w).1 (tableWordBytes nbits w).2 with
  | .ok i => some i
  | .rejected _ => none

end Sys2Proof
end

