-- ==== Sys2Proof/Machine/State.lean ====
section
/-! DEFINITION. The state of the block (10_state.md), the events its agents cause, the reasons a step can stop, and the
state after reset. INVENTORY.md lists every field with its rule. -/

namespace Sys2Proof.Machine

/-- The sequencer states (R36). Codes 10 to 15 are never taken, so the type has no value for them (U12). -/
inductive SeqState where
  | idle
  | resetWr
  | resetWait
  | calRd
  | calWait
  | trigWr
  | trigWait
  | busyRd
  | busyWait
  | dataRd
  deriving DecidableEq, Repr

/-- A command that can be accepted (R31, R81). -/
inductive Cmd where
  | init
  | measure
  | read
  deriving DecidableEq, Repr

/-- ERROR.KIND (R32). -/
inductive ErrKind where
  | noError
  | comm
  | calFailed
  | stillBusy
  deriving DecidableEq, Repr

/-- The four bus transactions the block emits; the set is closed (R90). -/
inductive Frame where
  | wrSoftreset
  | wrTrigger
  | rdStatus
  | rdSample
  deriving DecidableEq, Repr

/-- The ERROR register (R32 to R34): `cause = none` is CAUSE 0, `phase = idle` is PHASE 0. -/
structure ErrorReg where
  kind : ErrKind
  cause : Option Cause
  phase : SeqState
  deriving DecidableEq, Repr

/-- The result registers (R38 to R43). -/
structure Results where
  rawstat : Byte
  fieldHi : Byte
  fieldLo : Word
  humCode : BitVec 20
  tempCode : BitVec 20
  humF64Lo : Word
  humF64Hi : Word
  tempF64Lo : Word
  tempF64Hi : Word
  deriving DecidableEq, Repr

/-- What the datapath functions last returned; the model's own, no host access reads it (log 9). -/
structure Datapath where
  /-- EXTRACT's field (R170). -/
  f40 : BitVec 40
  /-- EXTRACT_HUM's code (R172). -/
  hc : BitVec 20
  /-- EXTRACT_TEMP's code (R173). -/
  tc : BitVec 20
  /-- CONV_HUM's exact value, as a numerator over 2^20 (R174). -/
  hum : Int
  /-- CONV_TEMP's exact value, as a numerator over 2^20 (R175). -/
  temp : Int
  /-- F64's word (R177). -/
  f64 : BitVec 64
  /-- CONV_HUM64's word (R178). -/
  hum64 : BitVec 64
  /-- CONV_TEMP64's word (R178). -/
  temp64 : BitVec 64
  deriving DecidableEq, Repr

/-- The oracle's draw for the pending transaction (R131, R132); `data` is what the device sent. -/
inductive Answer where
  | ok (data : List Byte)
  | err (c : Cause)
  deriving DecidableEq, Repr

/-- How a transaction of the history ended. -/
inductive TxnEnd where
  /-- Answered `Ok`, with the device's bytes. -/
  | ok (data : List Byte)
  /-- Answered `Err`. -/
  | err (c : Cause)
  /-- "abandoned at once: no further bit is sent and no STOP is generated" by a block reset (R220). -/
  | abandoned
  deriving DecidableEq, Repr

/-- A transaction of the history the oracle sees (R13). -/
structure Txn where
  frame : Frame
  result : TxnEnd
  deriving DecidableEq, Repr

/-- One atomic step of one agent (R13), or of the platform (R220). -/
inductive Event where
  /-- `MemRead(off, width)`, the width in bytes (R61). -/
  | hostRead (off : BitVec 6) (width : Nat)
  /-- `MemWrite(off, width, v)` (R61); of a narrow write only `off` and `width` matter. -/
  | hostWrite (off : BitVec 6) (width : Nat) (v : Word)
  /-- The oracle answers the transaction in flight (R13, R131, R132). The sequencer has not stepped yet. -/
  | busAnswer (a : Answer)
  /-- The timer expires the pending wait (R13, R133). The sequencer has not stepped yet. -/
  | timerExpires
  /-- The sequencer steps, the action of its state having completed (R13, R130). -/
  | sequencer
  /-- A datapath operation invoked on its own, outside a commit (log 9). -/
  | datapath (op : DatapathOp) (bytes : List Byte)
  /-- Block reset (R220). -/
  | blockReset
  deriving DecidableEq, Repr

/-- The host bus's response to a defined access (R61, R193). -/
inductive HostReply where
  | readData (v : Word)
  | writeDone
  deriving DecidableEq, Repr

/-- The registers of the window (R21). -/
inductive Reg where
  | ctrl
  | status
  | error
  | polls
  | devstat
  | rawstat
  | fieldHi
  | fieldLo
  | humCode
  | tempCode
  | humF64Lo
  | humF64Hi
  | tempF64Lo
  | tempF64Hi
  | intEn
  | param
  deriving DecidableEq, Repr

/-- Why the machine stops with a fault. -/
inductive Fault where
  /-- A host access of another width or alignment than R61 defines; raised by `hostRead` and `hostWrite`. The chip answers
  with an error response and goes on unchanged, so the stop is safe (R194, log 4). -/
  | accessError (off width : Nat)
  deriving DecidableEq, Repr

/-- Why a step is refused. -/
inductive Refusal where
  /-- An instruction without a meaning; raised by `exec`'s refused arms, of which none is left. Safe. -/
  | notModelled (mnemonic : String)
  /-- Bytes that are no instruction; raised by `busAnswer`, `sequencerStep` and `runBytes`. Through a bus answer it means a
  draw outside the closed lists of R131 and R132, through a datapath event a word outside the operation's row: neither can
  happen on the hardware. Safe (log 3). -/
  | undecodable (e : DecodeError)
  deriving DecidableEq, Repr

/-- The whole state. CTRL and PARAM are hardwired, STATUS.ERR and `irq` are computed (R23, R45, R29, R46). -/
structure State where
  /-- STATUS.BUSY (R24). -/
  busy : Bool
  /-- STATUS.DONE (R25). -/
  done : Bool
  /-- STATUS.REJ (R26). -/
  rej : Bool
  /-- STATUS.VALID (R27). -/
  valid : Bool
  /-- STATUS.CAL_OK (R28). -/
  calOk : Bool
  /-- STATUS.STATE, the sequencer state (R30, R36). -/
  seq : SeqState
  /-- STATUS.CUR_CMD, none for code 0 (R31). -/
  curCmd : Option Cmd
  /-- ERROR (R32 to R34). -/
  err : ErrorReg
  /-- POLLS.CAL_POLLS (R35). -/
  calPolls : BitVec 4
  /-- POLLS.BUSY_POLLS (R35). -/
  busyPolls : BitVec 4
  /-- DEVSTAT[7:0] (R37). -/
  devstat : Byte
  /-- The result registers (R38 to R43). -/
  res : Results
  /-- INT_EN.DONE_IE (R44). -/
  doneIe : Bool
  /-- INT_EN.REJ_IE (R44). -/
  rejIe : Bool
  /-- The capture buffer (R47). -/
  sample : Sample
  /-- The delay timer: the milliseconds of the wait that is pending, if one is (R48). -/
  wait : Option Nat
  /-- The timer has expired the wait of the sequencer's state, and the sequencer has not stepped yet (R48, R130; log 24). -/
  expired : Bool
  /-- The transaction in flight, if one is (R49). -/
  inFlight : Option Frame
  /-- The oracle's answer to the transaction of the sequencer's state, once it has come and until the sequencer steps
  (R49, R130; log 24). -/
  answer : Option Answer
  /-- The model's own: datapath results (log 9). -/
  dp : Datapath
  /-- The model's own: what the agents do next (log 1). -/
  schedule : List Event
  /-- The model's own: the ended bus transactions, newest first (R13, log 11). -/
  history : List Txn
  /-- The model's own: how many of them the command accepted last has had (log 11). -/
  cmdTxns : Nat
  /-- The model's own: the host bus's response to the last defined access (log 11). -/
  reply : Option HostReply
  /-- The model's own: the index of the next free value (log 5). -/
  draws : Nat
  deriving DecidableEq, Repr

/-- ERROR = 0x00000000 (R21). -/
def ErrorReg.zero : ErrorReg := { kind := .noError, cause := none, phase := .idle }

/-- Every result register 0x00000000 (R21). -/
def Results.zero : Results where
  rawstat := 0#8
  fieldHi := 0#8
  fieldLo := 0#32
  humCode := 0#20
  tempCode := 0#20
  humF64Lo := 0#32
  humF64Hi := 0#32
  tempF64Lo := 0#32
  tempF64Hi := 0#32

/-- The datapath latches before the first commit; the model's choice (log 9). -/
def Datapath.zero : Datapath where
  f40 := 0#40
  hc := 0#20
  tc := 0#20
  hum := 0
  temp := 0
  f64 := 0#64
  hum64 := 0#64
  temp64 := 0#64

/-- The block right after reset (R52, R220, R221). The capture buffer, which the spec leaves unspecified, is zero here
by the model's choice (log 5). -/
def State.reset : State where
  busy := false
  done := false
  rej := false
  valid := false
  calOk := false
  seq := .idle
  curCmd := none
  err := ErrorReg.zero
  calPolls := 0#4
  busyPolls := 0#4
  devstat := 0#8
  res := Results.zero
  doneIe := false
  rejIe := false
  sample := ⟨0#8, 0#8, 0#8, 0#8, 0#8, 0#8⟩
  wait := none
  expired := false
  inFlight := none
  answer := none
  dp := Datapath.zero
  schedule := []
  history := []
  cmdTxns := 0
  reply := none
  draws := 0

end Sys2Proof.Machine
end

