-- ==== Sys2Proof/Machine/Flags.lean ====
section
/-! DEFINITION. Codes of the fields, the flags that are computed, and each register's 32 bits (10_state.md). -/

namespace Sys2Proof.Machine

/-- The STATE code (R36). -/
def seqCode : SeqState → BitVec 4
  | .idle => 0#4
  | .resetWr => 1#4
  | .resetWait => 2#4
  | .calRd => 3#4
  | .calWait => 4#4
  | .trigWr => 5#4
  | .trigWait => 6#4
  | .busyRd => 7#4
  | .busyWait => 8#4
  | .dataRd => 9#4

/-- The CUR_CMD code (R31, R81). -/
def cmdCode : Option Cmd → BitVec 3
  | none => 0#3
  | some .init => 1#3
  | some .measure => 2#3
  | some .read => 3#3

/-- The KIND code (R32). -/
def kindCode : ErrKind → BitVec 2
  | .noError => 0#2
  | .comm => 1#2
  | .calFailed => 2#2
  | .stillBusy => 3#2

/-- The CAUSE code (R33). -/
def errCauseCode : Option Cause → BitVec 2
  | none => 0#2
  | some c => causeCode c

/-- STATUS.ERR is 1 exactly when ERROR.KIND is not 0 (R29). -/
def errFlag (s : State) : Bool := kindCode s.err.kind != 0#2

/-- `irq = (DONE & DONE_IE) | (REJ & REJ_IE)` (R46). -/
def irq (s : State) : Bool := (s.done && s.doneIe) || (s.rej && s.rejIe)

/-- STATUS (R24 to R31, R114). -/
def statusWord (s : State) : Word :=
  0#17 ++ cmdCode s.curCmd ++ seqCode s.seq ++ 0#2 ++ BitVec.ofBool (errFlag s) ++ BitVec.ofBool s.calOk ++
    BitVec.ofBool s.valid ++ BitVec.ofBool s.rej ++ BitVec.ofBool s.done ++ BitVec.ofBool s.busy

/-- ERROR (R32 to R34). -/
def errorWord (e : ErrorReg) : Word :=
  0#20 ++ seqCode e.phase ++ 0#2 ++ errCauseCode e.cause ++ 0#2 ++ kindCode e.kind

/-- POLLS (R35). -/
def pollsWord (s : State) : Word := 0#20 ++ s.busyPolls ++ 0#4 ++ s.calPolls

/-- INT_EN (R44). -/
def intEnWord (s : State) : Word := 0#30 ++ BitVec.ofBool s.rejIe ++ BitVec.ofBool s.doneIe

/-- PARAM: DEV_ADDR in bits 6:0 and the poll budget in bits 11:8, hardwired (R45). -/
def paramWord : Word := 0#20 ++ Config.maxCalPolls ++ 0#1 ++ Config.devAddr

/-- SCL and SDA are released (high-impedance) by the block when it has no transaction in flight (R220). -/
def linesReleased (s : State) : Bool := s.inFlight.isNone

end Sys2Proof.Machine
end

