-- ==== Sys2Proof/Machine/Ops.lean ====
section
/-! DEFINITION. The shared operations: entering a sequencer state, acceptance and rejection of a command, the end of a
command in success or in error, the poll counters, the datapath and the commit, and block reset. -/

namespace Sys2Proof.Machine

/-! ### The sequencer's pending action -/

/-- The transaction a state has in flight (R36). -/
def SeqState.frame : SeqState → Option Frame
  | .resetWr => some .wrSoftreset
  | .calRd => some .rdStatus
  | .trigWr => some .wrTrigger
  | .busyRd => some .rdStatus
  | .dataRd => some .rdSample
  | .idle => none
  | .resetWait => none
  | .calWait => none
  | .trigWait => none
  | .busyWait => none

/-- The wait a state has pending, in milliseconds (R36). -/
def SeqState.delay : SeqState → Option Nat
  | .resetWait => some Config.resetSettleMs
  | .calWait => some Config.pollMs
  | .trigWait => some Config.triggerSettleMs
  | .busyWait => some Config.pollMs
  | .idle => none
  | .resetWr => none
  | .calRd => none
  | .trigWr => none
  | .busyRd => none
  | .dataRd => none

/-- `state <- q`: "Every step that enters a bus state starts that state's transaction. Every step that enters a wait state
loads the timer" (R130). The action of the state it leaves has been used up. -/
def enter (q : SeqState) (s : State) : State :=
  { s with seq := q, inFlight := q.frame, answer := none, wait := q.delay, expired := false }

/-- How an answered transaction ended. -/
def Answer.result : Answer → TxnEnd
  | .ok data => .ok data
  | .err c => .err c

/-- The transaction in flight is answered: it "has already ended on the bus (STOP) when the oracle answers it" (R192), so
it goes into the history and nothing is in flight (R49). The answer waits for the sequencer's step. -/
def receive (f : Frame) (a : Answer) (s : State) : State :=
  { s with
    inFlight := none, answer := some a, history := { frame := f, result := a.result } :: s.history,
    cmdTxns := s.cmdTxns + 1 }

/-- The pending wait has expired (R48). The expiry waits for the sequencer's step. -/
def expire (s : State) : State := { s with wait := none, expired := true }

/-- The action of the sequencer's state has completed: "A sequencer step is enabled exactly when that action has
completed" (R130). -/
def actionCompleted (s : State) : Bool :=
  (s.seq.frame.isSome && s.answer.isSome) || (s.seq.delay.isSome && s.expired)

/-! ### Commands -/

/-- The state in which an accepted command starts (R100). -/
def Cmd.start : Cmd → SeqState
  | .init => .resetWr
  | .measure => .trigWr
  | .read => .resetWr

/-- INIT and READ clear CAL_OK at acceptance, MEASURE does not change it (R100). -/
def Cmd.calOkAfterAccept : Cmd → Bool → Bool
  | .init, _ => false
  | .measure, b => b
  | .read, _ => false

/-- `accept(c)` (R100). -/
def accept (c : Cmd) (s : State) : State :=
  enter c.start
    { s with
      busy := true, done := false, valid := false, curCmd := some c, err := ErrorReg.zero,
      calPolls := 0#4, busyPolls := 0#4, devstat := 0#8, res := Results.zero,
      calOk := c.calOkAfterAccept s.calOk, cmdTxns := 0 }

/-- `reject()`: REJ is set and nothing else changes (R101). -/
def reject (s : State) : State := { s with rej := true }

/-- `finish()`: ends a command in success (R150). -/
def finish (s : State) : State := enter .idle { s with busy := false, done := true }

/-- `Fail(kind, cause, phase)`: ends a command in error (R192). This is the one operation by which a command error is
taken; there is no return from it but the next accepted command (R196, R197). -/
def fail (kind : ErrKind) (cause : Option Cause) (phase : SeqState) (s : State) : State :=
  enter .idle { s with err := { kind := kind, cause := cause, phase := phase }, busy := false, done := true }

/-! ### Polls -/

/-- `start_cal_read()` (R137). -/
def startCalRead (s : State) : State := enter .calRd { s with calPolls := s.calPolls + 1#4 }

/-- `start_busy_read()` (R143). -/
def startBusyRead (s : State) : State := enter .busyRd { s with busyPolls := s.busyPolls + 1#4 }

/-- `cal_success()` (R139). Only INIT and READ reach it; for another CUR_CMD the spec gives no next state, and the model
leaves the sequencer where it is (log 13). -/
def calSuccess (s : State) : State :=
  match s.curCmd with
  | some .init => finish { s with calOk := true }
  | some .read => enter .trigWr { s with calOk := true }
  | some .measure => { s with calOk := true }
  | none => { s with calOk := true }

/-! ### Datapath: each operation writes its own latch -/

/-- EXTRACT (R170). -/
def opExtract (d1 d2 d3 d4 d5 : Byte) (dp : Datapath) : Datapath := { dp with f40 := extract d1 d2 d3 d4 d5 }

/-- EXTRACT_HUM (R172). -/
def opExtractHum (f40 : BitVec 40) (dp : Datapath) : Datapath := { dp with hc := extractHum f40 }

/-- EXTRACT_TEMP (R173). -/
def opExtractTemp (f40 : BitVec 40) (dp : Datapath) : Datapath := { dp with tc := extractTemp f40 }

/-- CONV_HUM (R174). -/
def opConvHum (hc : BitVec 20) (dp : Datapath) : Datapath := { dp with hum := convHum hc }

/-- CONV_TEMP (R175). -/
def opConvTemp (tc : BitVec 20) (dp : Datapath) : Datapath := { dp with temp := convTemp tc }

/-- F64 (R177). -/
def opF64 (m : Int) (dp : Datapath) : Datapath := { dp with f64 := f64 m }

/-- CONV_HUM64, which is F64 of CONV_HUM (R178). -/
def opConvHum64 (hc : BitVec 20) (dp : Datapath) : Datapath :=
  { opF64 (convHum hc) dp with hum64 := convHum64 hc }

/-- CONV_TEMP64, which is F64 of CONV_TEMP (R178). -/
def opConvTemp64 (tc : BitVec 20) (dp : Datapath) : Datapath :=
  { opF64 (convTemp tc) dp with temp64 := convTemp64 tc }

/-- What the operations leave when a commit invokes them in its order, EXTRACT first (R148); `decodeSample_eq_operations`
says so. -/
def decodeSample (d : Sample) : Datapath :=
  let f40 := extract d.d1 d.d2 d.d3 d.d4 d.d5
  { f40 := f40
    hc := extractHum f40
    tc := extractTemp f40
    hum := convHum (extractHum f40)
    temp := convTemp (extractTemp f40)
    f64 := convTemp64 (extractTemp f40)
    hum64 := convHum64 (extractHum f40)
    temp64 := convTemp64 (extractTemp f40) }

/-- The result registers a commit writes: byte 0 of the sample and the datapath's results (R148). -/
def resultsOf (d0 : Byte) (dp : Datapath) : Results where
  rawstat := d0
  fieldHi := dp.f40.extractLsb' 32 8
  fieldLo := dp.f40.extractLsb' 0 32
  humCode := dp.hc
  tempCode := dp.tc
  humF64Lo := dp.hum64.extractLsb' 0 32
  humF64Hi := dp.hum64.extractLsb' 32 32
  tempF64Lo := dp.temp64.extractLsb' 0 32
  tempF64Hi := dp.temp64.extractLsb' 32 32

/-- `commit(d0..d5)` (R148). Byte 0 is not tested (R171). -/
def commit (d : Sample) (s : State) : State :=
  { s with sample := d, dp := decodeSample d, res := resultsOf d.d0 (decodeSample d), valid := true }

/-- The capture buffer takes a free value (R47, U5; log 5). -/
def forgetSample (s : State) : State :=
  { s with sample := Config.freeSample s.draws, draws := s.draws + 1 }

/-! ### Block reset -/

/-- The transaction in flight, if one is, is abandoned (R220). -/
def abandoned (s : State) : List Txn :=
  match s.inFlight with
  | some f => [{ frame := f, result := .abandoned }]
  | none => []

/-- Block reset, in any state (R220): every register takes its reset value and the capture buffer a free one. The
schedule, the history and the free-value counter belong to the environment, and go on. -/
def blockReset (s : State) : State :=
  forgetSample { State.reset with schedule := s.schedule, history := abandoned s ++ s.history, draws := s.draws }

end Sys2Proof.Machine
end

