-- ==== Sys2Proof/Machine/BusFrames.lean ====
section
/-! DEFINITION. The meanings of the four bus transactions, answered: each is the sequencer step that completes the state
whose transaction was answered (R135, R138, R142, R145, R148). The step is enabled only in that state, once the oracle's
answer is the one the instruction carries (R130); elsewhere the instruction changes nothing (log 2). -/

namespace Sys2Proof.Machine

/-- The transaction of state `q` has been answered with `a`, so the step of `q` is enabled (R130). -/
def answeredWith (q : SeqState) (a : Answer) (s : State) : Bool := s.seq = q && s.answer = some a

/-- The answer a write instruction carries. -/
def answerOfWrite : WriteAnswer → Answer
  | .ok => .ok []
  | .err c => .err c

/-- The answer a status read carries. -/
def answerOfStatus : StatusAnswer → Answer
  | .ok s => .ok [s]
  | .err c => .err c

/-- The answer a sample read carries. -/
def answerOfSample : SampleAnswer → Answer
  | .ok d => .ok d.bytes
  | .err c => .err c

/-- WR_SOFTRESET answered in RESET_WR (R135). -/
def execWrSoftreset (a : WriteAnswer) (s : State) : Host.Outcome State Fault Refusal :=
  if answeredWith .resetWr (answerOfWrite a) s then
    match a with
    | .ok => .next (enter .resetWait s)
    | .err c => .next (fail .comm (some c) .resetWr s)
  else .next s

/-- WR_TRIGGER answered in TRIG_WR (R142). -/
def execWrTrigger (a : WriteAnswer) (s : State) : Host.Outcome State Fault Refusal :=
  if answeredWith .trigWr (answerOfWrite a) s then
    match a with
    | .ok => .next (enter .trigWait s)
    | .err c => .next (fail .comm (some c) .trigWr s)
  else .next s

/-- The calibration poll's step CAL_RD (R138): the answer, then the byte, then the budget (R195). -/
def calReadStep (a : StatusAnswer) (s : State) : State :=
  match a with
  | .err c => fail .comm (some c) .calRd s
  | .ok st =>
    let s := { s with devstat := st }
    if st &&& Config.maskCal ≠ 0#8 then calSuccess s
    else if s.calPolls < Config.maxCalPolls then enter .calWait s
    else fail .calFailed none .calRd s

/-- The busy poll's step BUSY_RD (R145): the answer, then the byte, then the budget (R195). -/
def busyReadStep (a : StatusAnswer) (s : State) : State :=
  match a with
  | .err c => fail .comm (some c) .busyRd s
  | .ok st =>
    let s := { s with devstat := st }
    if st &&& Config.maskBusy = 0#8 then enter .dataRd s
    else if s.busyPolls < Config.maxBusyPolls then enter .busyWait s
    else fail .stillBusy none .busyRd s

/-- RD_STATUS answered in CAL_RD (R138) or in BUSY_RD (R145). -/
def execRdStatus (a : StatusAnswer) (s : State) : Host.Outcome State Fault Refusal :=
  if answeredWith .calRd (answerOfStatus a) s then .next (calReadStep a s)
  else if answeredWith .busyRd (answerOfStatus a) s then .next (busyReadStep a s)
  else .next s

/-- RD_SAMPLE answered in DATA_RD (R148). -/
def execRdSample (a : SampleAnswer) (s : State) : Host.Outcome State Fault Refusal :=
  if answeredWith .dataRd (answerOfSample a) s then
    match a with
    | .ok d => .next (finish (commit d s))
    | .err c => .next (fail .comm (some c) .dataRd (forgetSample s))
  else .next s

end Sys2Proof.Machine
end

