-- ==== Sys2Proof/Machine/DatapathOps.lean ====
section
/-! DEFINITION. The meanings of the datapath operations (42_extract_convert.md). Each is pure and total and leaves its
result in its own latch. The host-visible result registers are written from the latches by the commit of DATA_RD and by
"no other step" (R38 to R43, R148; log 9). -/

namespace Sys2Proof.Machine

/-- EXTRACT (R170). -/
def execExtract (d1 d2 d3 d4 d5 : Byte) (s : State) : Host.Outcome State Fault Refusal :=
  .next { s with dp := opExtract d1 d2 d3 d4 d5 s.dp }

/-- EXTRACT_HUM (R172). -/
def execExtractHum (f40 : BitVec 40) (s : State) : Host.Outcome State Fault Refusal :=
  .next { s with dp := opExtractHum f40 s.dp }

/-- EXTRACT_TEMP (R173). -/
def execExtractTemp (f40 : BitVec 40) (s : State) : Host.Outcome State Fault Refusal :=
  .next { s with dp := opExtractTemp f40 s.dp }

/-- CONV_HUM (R174). -/
def execConvHum (hc : BitVec 20) (s : State) : Host.Outcome State Fault Refusal :=
  .next { s with dp := opConvHum hc s.dp }

/-- CONV_TEMP (R175). -/
def execConvTemp (tc : BitVec 20) (s : State) : Host.Outcome State Fault Refusal :=
  .next { s with dp := opConvTemp tc s.dp }

/-- F64 (R177). -/
def execF64 (m : Int) (s : State) : Host.Outcome State Fault Refusal :=
  .next { s with dp := opF64 m s.dp }

/-- CONV_HUM64 (R178). -/
def execConvHum64 (hc : BitVec 20) (s : State) : Host.Outcome State Fault Refusal :=
  .next { s with dp := opConvHum64 hc s.dp }

/-- CONV_TEMP64 (R178). -/
def execConvTemp64 (tc : BitVec 20) (s : State) : Host.Outcome State Fault Refusal :=
  .next { s with dp := opConvTemp64 tc s.dp }

end Sys2Proof.Machine
end

