-- ==== Sys2Proof/Machine/HostCommands.lean ====
section
/-! DEFINITION. The meanings of the commands written to CTRL (40_commands.md R100 to R106). The order of the tests is
R195's: NOP, then BUSY, then a reserved code, then MEASURE without CAL_OK. -/

namespace Sys2Proof.Machine

/-- NOP: no effect, never rejected (R102). -/
def execNop (_ign : BitVec 29) (s : State) : Host.Outcome State Fault Refusal := .next s

/-- INIT (R103). -/
def execInit (_ign : BitVec 29) (s : State) : Host.Outcome State Fault Refusal :=
  if s.seq = .idle then .next (accept .init s) else .next (reject s)

/-- MEASURE (R104). -/
def execMeasure (_ign : BitVec 29) (s : State) : Host.Outcome State Fault Refusal :=
  if s.seq = .idle ∧ s.calOk = true then .next (accept .measure s) else .next (reject s)

/-- READ (R105). -/
def execRead (_ign : BitVec 29) (s : State) : Host.Outcome State Fault Refusal :=
  if s.seq = .idle then .next (accept .read s) else .next (reject s)

/-- RSVD4 (R106). -/
def execRsvd4 (_ign : BitVec 29) (s : State) : Host.Outcome State Fault Refusal := .next (reject s)

/-- RSVD5 (R106). -/
def execRsvd5 (_ign : BitVec 29) (s : State) : Host.Outcome State Fault Refusal := .next (reject s)

/-- RSVD6 (R106). -/
def execRsvd6 (_ign : BitVec 29) (s : State) : Host.Outcome State Fault Refusal := .next (reject s)

/-- RSVD7 (R106). -/
def execRsvd7 (_ign : BitVec 29) (s : State) : Host.Outcome State Fault Refusal := .next (reject s)

end Sys2Proof.Machine
end

