-- ==== Sys2Proof/Machine/HostRegisters.lean ====
section
/-! DEFINITION. The meanings of the host's writes to STATUS and INT_EN (R111, R112), and the register window: offsets,
reads, and the window one byte at a time. -/

namespace Sys2Proof.Machine

/-! ### Writes -/

/-- `status_write`: write 1 to clear, write 0 leaves unchanged (R111). -/
def clearFlags (clrDone clrRej : Bool) (s : State) : State :=
  { s with done := s.done && !clrDone, rej := s.rej && !clrRej }

/-- ACK_DONE: v[1] is set; v[2] may be too (R111). -/
def execAckDone (clrRej _ign0 : Bool) (_ign : BitVec 29) (s : State) : Host.Outcome State Fault Refusal :=
  .next (clearFlags true clrRej s)

/-- ACK_REJ: v[2] is set; v[1] may be too (R111). -/
def execAckRej (clrDone _ign0 : Bool) (_ign : BitVec 29) (s : State) : Host.Outcome State Fault Refusal :=
  .next (clearFlags clrDone true s)

/-- WR_INT_EN (R112). -/
def execWrIntEn (doneIe rejIe : Bool) (_ign : BitVec 30) (s : State) : Host.Outcome State Fault Refusal :=
  .next { s with doneIe := doneIe, rejIe := rejIe }

/-! ### The window -/

/-- An access the block defines: 32 bits wide at a multiple of 4 (R61). -/
def accessDefined (off : BitVec 6) (width : Nat) : Bool := width = 4 && off.toNat % 4 = 0

/-- The register an offset lies in (R21). -/
def regAt (off : BitVec 6) : Reg :=
  match off.toNat / 4 with
  | 0 => .ctrl
  | 1 => .status
  | 2 => .error
  | 3 => .polls
  | 4 => .devstat
  | 5 => .rawstat
  | 6 => .fieldHi
  | 7 => .fieldLo
  | 8 => .humCode
  | 9 => .tempCode
  | 10 => .humF64Lo
  | 11 => .humF64Hi
  | 12 => .tempF64Lo
  | 13 => .tempF64Hi
  | 14 => .intEn
  | _ => .param

/-- The offset of a register (R21). -/
def Reg.offset : Reg → BitVec 6
  | .ctrl => 0x00#6
  | .status => 0x04#6
  | .error => 0x08#6
  | .polls => 0x0C#6
  | .devstat => 0x10#6
  | .rawstat => 0x14#6
  | .fieldHi => 0x18#6
  | .fieldLo => 0x1C#6
  | .humCode => 0x20#6
  | .tempCode => 0x24#6
  | .humF64Lo => 0x28#6
  | .humF64Hi => 0x2C#6
  | .tempF64Lo => 0x30#6
  | .tempF64Hi => 0x34#6
  | .intEn => 0x38#6
  | .param => 0x3C#6

/-- The 32 bits a host reads of a register, reserved bits 0 (R22, R114). CTRL reads 0 and PARAM 0x00000A38 always. -/
def readReg (r : Reg) (s : State) : Word :=
  match r with
  | .ctrl => 0#32
  | .status => statusWord s
  | .error => errorWord s.err
  | .polls => pollsWord s
  | .devstat => s.devstat.setWidth 32
  | .rawstat => s.res.rawstat.setWidth 32
  | .fieldHi => s.res.fieldHi.setWidth 32
  | .fieldLo => s.res.fieldLo
  | .humCode => s.res.humCode.setWidth 32
  | .tempCode => s.res.tempCode.setWidth 32
  | .humF64Lo => s.res.humF64Lo
  | .humF64Hi => s.res.humF64Hi
  | .tempF64Lo => s.res.tempF64Lo
  | .tempF64Hi => s.res.tempF64Hi
  | .intEn => intEnWord s
  | .param => paramWord

/-- The byte at an offset of the window: register bit 8k+j is bit j of the byte at offset off+k (R63). -/
def windowByte (off : BitVec 6) (s : State) : Byte :=
  (readReg (regAt off) s).extractLsb' (8 * (off.toNat % 4)) 8

/-- `MemRead(off, width)` (R61, R114): no side effect on the block (R64). -/
def hostRead (off : BitVec 6) (width : Nat) (s : State) : Host.Outcome State Fault Refusal :=
  if accessDefined off width then .next { s with reply := some (.readData (readReg (regAt off) s)) }
  else .fault (.accessError off.toNat width)

/-! ### The window in the host's address map -/

/-- The host address of an offset (R60). -/
def hostAddress (off : BitVec 6) : Nat := Config.base + off.toNat

/-- The offset the platform presents for a host address: none outside the 64-byte window, and the block then never sees
the access (R60, R70, U11). -/
def offsetOf (addr : Nat) : Option (BitVec 6) :=
  if Config.base ≤ addr ∧ addr < Config.base + 64 then some (BitVec.ofNat 6 (addr - Config.base)) else none

end Sys2Proof.Machine
end

