-- ==== Sys2Proof/Machine/Dispatch.lean ====
section
/-! DEFINITION. The dispatch: one arm per row of spec/opcode_table.json. -/

namespace Sys2Proof.Machine

def exec (i : Instr) (s : State) : Host.Outcome State Fault Refusal :=
  match i with
  | .nop ign => Sys2Proof.Machine.execNop ign s
  | .init ign => Sys2Proof.Machine.execInit ign s
  | .measure ign => Sys2Proof.Machine.execMeasure ign s
  | .read ign => Sys2Proof.Machine.execRead ign s
  | .rsvd4 ign => Sys2Proof.Machine.execRsvd4 ign s
  | .rsvd5 ign => Sys2Proof.Machine.execRsvd5 ign s
  | .rsvd6 ign => Sys2Proof.Machine.execRsvd6 ign s
  | .rsvd7 ign => Sys2Proof.Machine.execRsvd7 ign s
  | .ackDone clrRej ign0 ign => Sys2Proof.Machine.execAckDone clrRej ign0 ign s
  | .ackRej clrDone ign0 ign => Sys2Proof.Machine.execAckRej clrDone ign0 ign s
  | .wrIntEn doneIe rejIe ign => Sys2Proof.Machine.execWrIntEn doneIe rejIe ign s
  | .wrSoftreset a => Sys2Proof.Machine.execWrSoftreset a s
  | .wrTrigger a => Sys2Proof.Machine.execWrTrigger a s
  | .rdStatus a => Sys2Proof.Machine.execRdStatus a s
  | .rdSample a => Sys2Proof.Machine.execRdSample a s
  | .extract d1 d2 d3 d4 d5 => Sys2Proof.Machine.execExtract d1 d2 d3 d4 d5 s
  | .extractHum f40 => Sys2Proof.Machine.execExtractHum f40 s
  | .extractTemp f40 => Sys2Proof.Machine.execExtractTemp f40 s
  | .convHum hc => Sys2Proof.Machine.execConvHum hc s
  | .convTemp tc => Sys2Proof.Machine.execConvTemp tc s
  | .f64 m => Sys2Proof.Machine.execF64 m s
  | .convHum64 hc => Sys2Proof.Machine.execConvHum64 hc s
  | .convTemp64 tc => Sys2Proof.Machine.execConvTemp64 tc s

end Sys2Proof.Machine
end

