-- ==== Sys2Proof/Machine/Sequencer.lean ====
section
/-! DEFINITION. The timer's step, and the sequencer's steps once a wait has expired (R136, R140, R144, R146). They are no
rows of the opcode table. -/

namespace Sys2Proof.Machine

/-- The timer's step: it expires the pending wait (R13, R133); where none is pending, nothing happens (log 2). -/
def timerExpires (s : State) : State := if s.wait.isSome then expire s else s

/-- The sequencer's step in a wait state: enabled once its wait has expired (R130); where it has not, nothing happens
(log 2). -/
def waitOver (s : State) : State :=
  if s.expired then
    match s.seq with
    | .resetWait => startCalRead s
    | .calWait => startCalRead s
    | .trigWait => startBusyRead s
    | .busyWait => startBusyRead s
    | .idle => s
    | .resetWr => s
    | .calRd => s
    | .trigWr => s
    | .busyRd => s
    | .dataRd => s
  else s

end Sys2Proof.Machine
end

