-- ==== Sys2Proof/Machine/Fetch.lean ====
section
/-! DEFINITION. What the machine runs next: the head of the schedule, the bytes it presents to the decoder, and how a
word of the opcode table is placed so that the next step runs it. -/

namespace Sys2Proof.Machine

/-- Decode and run; bytes that are no instruction are refused by name. -/
def runBytes (f : Format) (bytes : List Byte) (s : State) : Host.Outcome State Fault Refusal :=
  match decode f bytes with
  | .ok i => exec i s
  | .rejected e => .refused (.undecodable e)

/-! ### Host writes -/

/-- `write_effect(off, v)` (R110): CTRL, STATUS and INT_EN have an effect; a write to any other register is ignored
(R113), and so is a STATUS write with neither W1C bit set (R111). -/
def writeEffect (off : BitVec 6) (v : Word) (s : State) : Host.Outcome State Fault Refusal :=
  match regAt off with
  | .ctrl => runBytes .hcmd (leBytes v) s
  | .status => if v.getLsbD 1 || v.getLsbD 2 then runBytes .hstw (leBytes v) s else .next s
  | .intEn => runBytes .hiew (leBytes v) s
  | .error => .next s
  | .polls => .next s
  | .devstat => .next s
  | .rawstat => .next s
  | .fieldHi => .next s
  | .fieldLo => .next s
  | .humCode => .next s
  | .tempCode => .next s
  | .humF64Lo => .next s
  | .humF64Hi => .next s
  | .tempF64Lo => .next s
  | .tempF64Hi => .next s
  | .param => .next s

/-- `MemWrite(off, width, v)` (R61, R110). "The host's step completes normally on the host bus", whether or not the write
had an effect (R193). -/
def hostWrite (off : BitVec 6) (width : Nat) (v : Word) (s : State) : Host.Outcome State Fault Refusal :=
  if accessDefined off width then writeEffect off v { s with reply := some .writeDone }
  else .fault (.accessError off.toNat width)

/-! ### Bus answers -/

/-- The format of a frame's transaction. -/
def frameFormat : Frame → Format
  | .wrSoftreset => .i2cWrite
  | .wrTrigger => .i2cWrite
  | .rdStatus => .i2cRead
  | .rdSample => .i2cRead

/-- What the master sends of a frame after START: the address byte and, in a write, the data bytes (R86 to R89). -/
def masterBytes : Frame → List Byte
  | .wrSoftreset => [writeAddrByte, Config.cmdSoftReset]
  | .wrTrigger => writeAddrByte :: Config.cmdTrigger
  | .rdStatus => [readAddrByte]
  | .rdSample => [readAddrByte]

/-- How many bytes the device sends in a frame: STATUS_LEN, SAMPLE_LEN, none in a write (R7, R91). -/
def deviceBytes : Frame → Nat
  | .wrSoftreset => 0
  | .wrTrigger => 0
  | .rdStatus => 1
  | .rdSample => 6

/-- The bytes the decoder reads of an answered frame: outcome byte, frame, device bytes, which are zeros where the answer is
an error (log 6). -/
def answerBytes (f : Frame) : Answer → List Byte
  | .ok data => 0#8 :: (masterBytes f ++ data)
  | .err c => outcomeByte c :: (masterBytes f ++ List.replicate (deviceBytes f) 0#8)

/-- An answer carries as many device bytes as its frame has (R91, R132). -/
def answerFits (f : Frame) : Answer → Bool
  | .ok data => data.length = deviceBytes f
  | .err _ => true

/-- The instruction a frame and its answer are; rejected by name where the answer is not on the closed list of R131 or
R132 (log 3). -/
def decodeAnswer (f : Frame) (a : Answer) : Decoded :=
  if answerFits f a then decode (frameFormat f) (answerBytes f a) else .rejected .wrongLength

/-- The oracle's step: it answers the transaction in flight with a draw from the closed list (R13, R131, R132); where none
is in flight, nothing happens (log 2). -/
def busAnswer (a : Answer) (s : State) : Host.Outcome State Fault Refusal :=
  match s.inFlight with
  | some f =>
    match decodeAnswer f a with
    | .ok _ => .next (receive f a s)
    | .rejected e => .refused (.undecodable e)
  | none => .next s

/-! ### The sequencer -/

/-- The sequencer's step (R13, R130): in a bus state it runs the instruction that the state's transaction and the answer to
it are, in a wait state the step of the expired wait; where the action has not completed, nothing happens (log 2). -/
def sequencerStep (s : State) : Host.Outcome State Fault Refusal :=
  match s.seq.frame with
  | some f =>
    match s.answer with
    | some a =>
      match decodeAnswer f a with
      | .ok i => exec i s
      | .rejected e => .refused (.undecodable e)
    | none => .next s
  | none => .next (waitOver s)

/-! ### One step -/

/-- One event, with the schedule already moved past it. -/
def runEvent (e : Event) (s : State) : Host.Outcome State Fault Refusal :=
  match e with
  | .hostRead off width => hostRead off width s
  | .hostWrite off width v => hostWrite off width v s
  | .busAnswer a => busAnswer a s
  | .timerExpires => .next (timerExpires s)
  | .sequencer => sequencerStep s
  | .datapath op bytes => runBytes (.datapath op) bytes s
  | .blockReset => .next (blockReset s)

/-- The next event of the schedule. With none left no agent moves, and the state stays (log 1): so a transaction the oracle
never answers leaves the block as it is (R153). -/
def runNext (s : State) : Host.Outcome State Fault Refusal :=
  match s.schedule with
  | [] => .next s
  | e :: rest => runEvent e { s with schedule := rest }

/-! ### Placing an instruction -/

/-- `e` is what the next step runs. -/
def scheduleFirst (e : Event) (s : State) : State := { s with schedule := e :: s.schedule }

/-- The sequencer is in state `q`, its transaction answered with `a`, BUSY set and a command accepted: `c`, where none was.
This is what the sequencer's step needs (R24, R31, R36, R130, R139). -/
def placeSeq (q : SeqState) (a : Answer) (c : Cmd) (s : State) : State :=
  { enter q s with busy := true, curCmd := some (s.curCmd.getD c), inFlight := none, answer := some a }

/-- The state whose step an answered status read runs: BUSY_RD if it is the one, else CAL_RD (R88). -/
def statusReadState (s : State) : SeqState := if s.seq = .busyRd then .busyRd else .calRd

/-- The host word of four bytes. -/
def wordOfBytes : List Byte → Word
  | [b0, b1, b2, b3] => leWord b0 b1 b2 b3
  | _ => 0#32

/-- A write of a host instruction's word to its register. -/
def hostWordEvent (off : BitVec 6) (i : Instr) : Event := .hostWrite off 4 (wordOfBytes (encode i))

/-- A datapath instruction's own event. -/
def datapathEvent (op : DatapathOp) (i : Instr) : Event := .datapath op (encode i)

/-- The state whose very next step runs `i` (log 8): a host word is a write to its register, a transaction is the
sequencer's step with the answer to it received, a datapath operation is an event of its own. -/
def placeInstr (i : Instr) (s : State) : State :=
  match i with
  | .nop _ => scheduleFirst (hostWordEvent 0x00#6 i) s
  | .init _ => scheduleFirst (hostWordEvent 0x00#6 i) s
  | .measure _ => scheduleFirst (hostWordEvent 0x00#6 i) s
  | .read _ => scheduleFirst (hostWordEvent 0x00#6 i) s
  | .rsvd4 _ => scheduleFirst (hostWordEvent 0x00#6 i) s
  | .rsvd5 _ => scheduleFirst (hostWordEvent 0x00#6 i) s
  | .rsvd6 _ => scheduleFirst (hostWordEvent 0x00#6 i) s
  | .rsvd7 _ => scheduleFirst (hostWordEvent 0x00#6 i) s
  | .ackDone _ _ _ => scheduleFirst (hostWordEvent 0x04#6 i) s
  | .ackRej _ _ _ => scheduleFirst (hostWordEvent 0x04#6 i) s
  | .wrIntEn _ _ _ => scheduleFirst (hostWordEvent 0x38#6 i) s
  | .wrSoftreset a => scheduleFirst .sequencer (placeSeq .resetWr (answerOfWrite a) .init s)
  | .wrTrigger a => scheduleFirst .sequencer (placeSeq .trigWr (answerOfWrite a) .measure s)
  | .rdStatus a => scheduleFirst .sequencer (placeSeq (statusReadState s) (answerOfStatus a) .init s)
  | .rdSample a => scheduleFirst .sequencer (placeSeq .dataRd (answerOfSample a) .measure s)
  | .extract _ _ _ _ _ => scheduleFirst (datapathEvent .extract i) s
  | .extractHum _ => scheduleFirst (datapathEvent .extractHum i) s
  | .extractTemp _ => scheduleFirst (datapathEvent .extractTemp i) s
  | .convHum _ => scheduleFirst (datapathEvent .convHum i) s
  | .convTemp _ => scheduleFirst (datapathEvent .convTemp i) s
  | .f64 _ => scheduleFirst (datapathEvent .f64 i) s
  | .convHum64 _ => scheduleFirst (datapathEvent .convHum64 i) s
  | .convTemp64 _ => scheduleFirst (datapathEvent .convTemp64 i) s

/-- A word of the opcode table, placed; one that is no instruction is placed so that the next step refuses it. -/
def placeWord (s : State) (nbits w : Nat) : State :=
  match decodeTableWord nbits w with
  | some i => placeInstr i s
  | none => scheduleFirst (.datapath .extract []) s

end Sys2Proof.Machine
end

