-- ==== Sys2Proof/Machine/Behaviour.lean ====
section
/-! DEFINITION. Behaviours: infinite runs in which the agents' steps come in any order (R13), and the weak fairness under
which a pending wait ends (R13, R133). A behaviour is a property of infinitely many steps of `step`, so it stands beside
the machine and not in it; State stays plain data. -/

namespace Sys2Proof.Machine

/-- The events `ev` take the machine through the states `st`: at moment `n` the step runs `ev n` from `st n`, whatever the
schedule still holds. -/
def Behaviour (st : Nat → State) (ev : Nat → Event) : Prop :=
  ∀ n, step (scheduleFirst (ev n) (st n)) = .next (st (n + 1))

/-- Weak fairness: an agent whose step stays enabled from some moment on takes it at some moment after. -/
def WeaklyFair (enabled : State → Prop) (isStep : Event → Prop) (st : Nat → State) (ev : Nat → Event) : Prop :=
  ∀ n, (∀ m, n ≤ m → enabled (st m)) → ∃ m, n ≤ m ∧ isStep (ev m)

/-- The timer's step is enabled while a wait is pending (R48, R133). -/
def timerEnabled (s : State) : Prop := s.wait ≠ none

/-- "Under weak fairness it always expires eventually" (R13): the fairness of the timer, over the pending wait. -/
def TimerFair (st : Nat → State) (ev : Nat → Event) : Prop := WeaklyFair timerEnabled (· = .timerExpires) st ev

/-- The sequencer's step is enabled "exactly when that action has completed" (R130). -/
def sequencerEnabled (s : State) : Prop := actionCompleted s = true

/-- The fairness of the sequencer, which no rule states: the model's own premise where a statement names it (log 12). -/
def SequencerFair (st : Nat → State) (ev : Nat → Event) : Prop := WeaklyFair sequencerEnabled (· = .sequencer) st ev

end Sys2Proof.Machine
end

