-- ==== Sys2Proof/Machine/Timing.lean ====
section
/-! DEFINITION. The timing the spec gives, as functions of its open parameters. No rule of the model depends on it
(R238): the machine keeps "a wait is pending" and no count (R48). -/

namespace Sys2Proof.Machine

/-- The least number of block clock cycles of a wait of `ms` milliseconds: `ceil(t * CLK_HZ / 1000)` (R133). -/
def minWaitCycles (ms : Nat) : Nat := (ms * Config.clkHz + 999) / 1000

/-- The SCL cycles of a frame, nine for each byte, without START, STOP and stretching (R239). -/
def sclCycles (f : Frame) : Nat := 9 * ((masterBytes f).length + deviceBytes f)

/-- The least duration in milliseconds of the waits before the `n`-th calibration poll ends (R238). -/
def calWaitsMs (n : Nat) : Nat := Config.resetSettleMs + (n - 1) * Config.pollMs

/-- The least duration in milliseconds of the waits before the `m`-th busy poll ends (R238). -/
def busyWaitsMs (m : Nat) : Nat := Config.triggerSettleMs + (m - 1) * Config.pollMs

end Sys2Proof.Machine
end

