-- ==== Sys2Proof/Machine/Wire.lean ====
section
/-! DEFINITION. The wire form of a transaction (R65, R84, R85, R91): START, bytes with their acknowledge bit, STOP. The
step works at transaction level (R67); these functions say what each ended transaction looked like on the bus. -/

namespace Sys2Proof.Machine

/-- What a listener sees on the bus. -/
inductive WireSym where
  | start
  /-- A byte and its ninth bit: `ack` is true where the receiver acknowledges. -/
  | byte (b : Byte) (ack : Bool)
  | stop
  deriving DecidableEq, Repr

/-- The bits of a byte in wire order, most significant first (R65). -/
def byteBits (b : Byte) : List Bool :=
  [b.getLsbD 7, b.getLsbD 6, b.getLsbD 5, b.getLsbD 4, b.getLsbD 3, b.getLsbD 2, b.getLsbD 1, b.getLsbD 0]

/-- Bytes that are each acknowledged. -/
def acked (bs : List Byte) : List WireSym := bs.map fun b => .byte b true

/-- Bytes of a read: "The master sends ACK after each byte but the last and NACK after the last" (R85). -/
def readBytes : List Byte → List WireSym
  | [] => []
  | [b] => [.byte b false]
  | b :: bs => .byte b true :: readBytes bs

/-- A transaction answered `Ok`, one standalone START to STOP (R85). -/
def wireOk (f : Frame) (data : List Byte) : List WireSym :=
  [.start] ++ acked (masterBytes f) ++ readBytes data ++ [.stop]

/-- "A missing ACK after the address byte ends the transaction with STOP" (R85). -/
def wireAddrNack (f : Frame) : List WireSym :=
  match masterBytes f with
  | [] => [.start, .stop]
  | a :: _ => [.start, .byte a false, .stop]

/-- A write whose data byte `k` (from 0) is not acknowledged: "the remaining bytes are not sent" (R85). The answer does not
say which byte it was (log 23). -/
def wireDataNack (f : Frame) (k : Nat) : List WireSym :=
  match masterBytes f with
  | [] => [.start, .stop]
  | a :: bs =>
    [.start, .byte a true] ++ acked (bs.take k) ++ ((bs.drop k).take 1).map (fun b => .byte b false) ++ [.stop]

end Sys2Proof.Machine
end

