-- ==== Sys2Proof/Safety.lean ====
section
/-! DEFINITION. What the statements are about: the spec's eight invariants (R51), the consistency that makes them
inductive, the count of transactions of a command (R149), the edges of the sequencer (R36, R152), and the test encoder of
R182. A safe run is one of next states; the one fault is an access the block does not define (R194). -/

namespace Sys2Proof.Machine

/-! ### The invariants of R51 -/

/-- The eight invariants every step keeps, numbered as R51 numbers them. -/
structure SpecInvariants (s : State) : Prop where
  /-- 1 -/
  busy_iff : s.busy = true ↔ s.seq ≠ .idle
  /-- 2 -/
  busy_not_done : ¬(s.busy = true ∧ s.done = true)
  /-- 3 -/
  valid_means : s.valid = true → s.busy = false ∧ errFlag s = false ∧ s.calOk = true ∧
    (s.curCmd = some .measure ∨ s.curCmd = some .read)
  /-- 4 -/
  err_means : errFlag s = true → s.busy = false ∧ s.valid = false
  /-- 5 -/
  busy_means : s.busy = true → s.valid = false ∧ errFlag s = false
  /-- 6 -/
  results_clear : s.valid = false → s.res = Results.zero
  /-- 7 -/
  polls_bounded : s.calPolls.toNat ≤ 10 ∧ s.busyPolls.toNat ≤ 10
  /-- 8 -/
  busy_polls_calibrated : 0 < s.busyPolls.toNat → s.calOk = true

/-! ### Consistency of the sequencer with its registers -/

/-- The states of the INIT sequence (R134). -/
def SeqState.inInit : SeqState → Bool
  | .resetWr => true
  | .resetWait => true
  | .calRd => true
  | .calWait => true
  | .idle => false
  | .trigWr => false
  | .trigWait => false
  | .busyRd => false
  | .busyWait => false
  | .dataRd => false

/-- The states of the MEASURE sequence (R141). -/
def SeqState.inMeasure : SeqState → Bool
  | .trigWr => true
  | .trigWait => true
  | .busyRd => true
  | .busyWait => true
  | .dataRd => true
  | .idle => false
  | .resetWr => false
  | .resetWait => false
  | .calRd => false
  | .calWait => false

/-- What the poll counters are in each state (R136 to R146). -/
def pollsInState (s : State) : Prop :=
  match s.seq with
  | .idle => True
  | .resetWr => s.calPolls.toNat = 0
  | .resetWait => s.calPolls.toNat = 0
  | .calRd => 1 ≤ s.calPolls.toNat
  | .calWait => 1 ≤ s.calPolls.toNat ∧ s.calPolls.toNat ≤ 9
  | .trigWr => s.busyPolls.toNat = 0
  | .trigWait => s.busyPolls.toNat = 0
  | .busyRd => 1 ≤ s.busyPolls.toNat
  | .busyWait => 1 ≤ s.busyPolls.toNat ∧ s.busyPolls.toNat ≤ 9
  | .dataRd => 1 ≤ s.busyPolls.toNat

/-- The command accepted last has an INIT part: it is INIT or READ (R100, R134). -/
abbrev hasInitPart (s : State) : Prop := s.curCmd = some .init ∨ s.curCmd = some .read

/-- The command accepted last has a MEASURE part: it is MEASURE or READ (R100, R141). -/
abbrev hasMeasurePart (s : State) : Prop := s.curCmd = some .measure ∨ s.curCmd = some .read

/-- What the block records with each error (R191), and in which part of which command it can come. -/
def errorRecorded (s : State) : Prop :=
  match s.err.kind with
  | .noError => s.err.cause = none ∧ s.err.phase = .idle
  | .comm =>
    s.err.cause ≠ none ∧
      ((s.err.phase = .resetWr ∧ s.calPolls.toNat = 0 ∧ s.calOk = false ∧ hasInitPart s) ∨
        (s.err.phase = .calRd ∧ s.err.cause ≠ some .dataNack ∧ 1 ≤ s.calPolls.toNat ∧ s.calOk = false ∧
          hasInitPart s) ∨
        (s.err.phase = .trigWr ∧ s.busyPolls.toNat = 0 ∧ s.calOk = true ∧ hasMeasurePart s) ∨
        (s.err.phase = .busyRd ∧ s.err.cause ≠ some .dataNack ∧ 1 ≤ s.busyPolls.toNat ∧ s.calOk = true ∧
          hasMeasurePart s) ∨
        (s.err.phase = .dataRd ∧ s.err.cause ≠ some .dataNack ∧ 1 ≤ s.busyPolls.toNat ∧
          s.devstat &&& Config.maskBusy = 0#8 ∧ s.calOk = true ∧ hasMeasurePart s))
  | .calFailed =>
    s.err.cause = none ∧ s.err.phase = .calRd ∧ s.calPolls.toNat = 10 ∧ s.devstat &&& Config.maskCal = 0#8 ∧
      s.calOk = false ∧ hasInitPart s
  | .stillBusy =>
    s.err.cause = none ∧ s.err.phase = .busyRd ∧ s.busyPolls.toNat = 10 ∧ s.devstat &&& Config.maskBusy ≠ 0#8 ∧
      s.calOk = true ∧ hasMeasurePart s

/-- The closed lists of the oracle's answers: R131 for a write, R132 for a read. -/
def answerListed (f : Frame) : Answer → Bool
  | .ok data => data.length = deviceBytes f
  | .err .addrNack => true
  | .err .dataNack => frameFormat f = .i2cWrite
  | .err .busError => true

/-- The state's transaction is in flight, or it has been answered from the closed list (R49, R130, R131, R132). -/
def transactionPending (s : State) : Prop :=
  (s.inFlight = s.seq.frame ∧ s.answer = none) ∨
    (s.inFlight = none ∧ ∃ f a, s.seq.frame = some f ∧ s.answer = some a ∧ answerListed f a = true)

/-- The state's wait is pending, or it has expired (R48, R130). -/
def waitPending (s : State) : Prop :=
  (s.wait = s.seq.delay ∧ s.expired = false) ∨ (s.wait = none ∧ s.seq.delay ≠ none ∧ s.expired = true)

/-- The state's one action, pending or completed, its command and its counters fit together (R36, R49, R48, R130, R134,
R141). -/
structure Consistent (s : State) : Prop where
  transaction : transactionPending s
  timer : waitPending s
  init_part : s.seq.inInit = true → hasInitPart s ∧ s.calOk = false ∧ s.busyPolls.toNat = 0
  measure_part : s.seq.inMeasure = true → hasMeasurePart s ∧ s.calOk = true
  polls : pollsInState s
  data_ready : s.seq = .dataRd → s.devstat &&& Config.maskBusy = 0#8
  init_polls : s.curCmd = some .init → s.busyPolls.toNat = 0
  measure_polls : s.curCmd = some .measure → s.calPolls.toNat = 0
  cal_started : hasInitPart s → s.seq ≠ .resetWr → s.seq ≠ .resetWait → s.err.phase ≠ .resetWr →
    1 ≤ s.calPolls.toNat
  valid_polls : s.valid = true → 1 ≤ s.busyPolls.toNat ∧ s.devstat &&& Config.maskBusy = 0#8
  /-- "`Decoded` is VALID = 1" (R36). -/
  decoded : s.seq = .idle → hasMeasurePart s → s.err.kind = .noError → s.valid = true
  /-- "`Calibrated` at the end of INIT is ERR = 0, CAL_OK = 1" (R36). -/
  calibrated : s.seq = .idle → s.curCmd = some .init → s.err.kind = .noError → s.calOk = true
  error : errorRecorded s

/-- The invariant the step keeps. -/
structure Inv (s : State) : Prop where
  spec : SpecInvariants s
  consistent : Consistent s

/-! ### Counting a command's transactions -/

/-- The ended transactions of the command accepted last, newest first. -/
def cmdHistory (s : State) : List Txn := s.history.take s.cmdTxns

/-- How many transactions of this frame the command accepted last has issued: the ended ones and the one in flight. -/
def issued (f : Frame) (s : State) : Nat :=
  (cmdHistory s).countP (fun t => t.frame = f) + (if s.inFlight = some f then 1 else 0)

/-- How many soft resets a command issues: one in INIT and READ (R149). -/
def softResetsOf : Option Cmd → Nat
  | some .init => 1
  | some .read => 1
  | some .measure => 0
  | none => 0

/-- How many triggers a command issues: one in MEASURE, and in READ one once calibration has succeeded (R149). -/
def triggersOf : Option Cmd → Bool → Nat
  | some .measure, _ => 1
  | some .read, calOk => if calOk then 1 else 0
  | some .init, _ => 0
  | none, _ => 0

/-- A sample read has been issued: one is in flight, one succeeded, or one failed (R147, R149). -/
def sampleIssued (s : State) : Bool :=
  s.seq = .dataRd || s.valid || (s.err.kind = .comm && s.err.phase = .dataRd)

/-- The transaction counts of R149, at every moment of a command. -/
structure Counted (s : State) : Prop where
  ended : s.cmdTxns ≤ s.history.length
  soft_resets : issued .wrSoftreset s = softResetsOf s.curCmd
  triggers : issued .wrTrigger s = triggersOf s.curCmd s.calOk
  status_reads : issued .rdStatus s = s.calPolls.toNat + s.busyPolls.toNat
  sample_reads : issued .rdSample s = if sampleIssued s then 1 else 0

/-! ### The sequencer's edges -/

/-- The states one step can move to, besides staying and a block reset: R100, R135 to R148, R192. -/
def SeqState.successors : SeqState → List SeqState
  | .idle => [.resetWr, .trigWr]
  | .resetWr => [.resetWait, .idle]
  | .resetWait => [.calRd]
  | .calRd => [.calWait, .trigWr, .idle]
  | .calWait => [.calRd]
  | .trigWr => [.trigWait, .idle]
  | .trigWait => [.busyRd]
  | .busyRd => [.dataRd, .busyWait, .idle]
  | .busyWait => [.busyRd]
  | .dataRd => [.idle]

/-! ### Runs, and the schedules of a poll -/

/-- `n` steps from `s`, stopping at the first that does not answer a next state. -/
def runSteps : Nat → State → Host.Outcome State Fault Refusal
  | 0, s => .next s
  | n + 1, s =>
    match step s with
    | .next t => runSteps n t
    | .fault r => .fault r
    | .refused r => .refused r

/-- The oracle answers `Ok` with these bytes, and the sequencer steps. -/
def answerThenStep (data : List Byte) : List Event := [.busAnswer (.ok data), .sequencer]

/-- The timer expires the wait, and the sequencer steps. -/
def expireThenStep : List Event := [.timerExpires, .sequencer]

/-- Polls that each answer one status byte and are followed by the wait of R140 or R146. -/
def failedPolls (bytes : List Byte) : List Event :=
  bytes.flatMap fun b => answerThenStep [b] ++ expireThenStep

/-- INIT, its reset write acknowledged, its settle wait, then polls that fail with `bytes` and one that answers `last`
(R134). -/
def initSchedule (bytes : List Byte) (last : Byte) : List Event :=
  [.hostWrite 0x00#6 4 1#32] ++ answerThenStep [] ++ expireThenStep ++ failedPolls bytes ++ answerThenStep [last]

/-- MEASURE, its trigger acknowledged, its settle wait, then polls that fail with `bytes` and one that answers `last`
(R141). -/
def measureSchedule (bytes : List Byte) (last : Byte) : List Event :=
  [.hostWrite 0x00#6 4 2#32] ++ answerThenStep [] ++ expireThenStep ++ failedPolls bytes ++ answerThenStep [last]

/-- READ, its writes acknowledged, its waits, a calibration poll and a busy poll, and the sample read (R105). -/
def readSchedule (cal busy : Byte) (d : Sample) : List Event :=
  [.hostWrite 0x00#6 4 3#32] ++ answerThenStep [] ++ expireThenStep ++ answerThenStep [cal] ++ answerThenStep [] ++
    expireThenStep ++ answerThenStep [busy] ++ answerThenStep d.bytes

/-! ### The test encoder of R182 -/

/-- `n` is a nearest integer of `x`: halfway between two integers both are. -/
def IsNearest (n : Int) (x : ℚ) : Prop := |(n : ℚ) - x| ≤ 1 / 2

/-- `round` (R182): the nearest integer. R182 does not say how `round` breaks a tie; that it rounds halves up is the model's
choice (DESIGN CHOICE, log 25). -/
def nearest (x : ℚ) : Int := ⌊x + 1 / 2⌋

/-- `min(round(h * 2^20 / 100), 0xFFFFF)` (R182), ties as `nearest` breaks them (log 25). -/
def nearestHumCode (h : ℚ) : Int := min (nearest (h * 2 ^ 20 / 100)) 0xFFFFF

/-- `min(round((t + 50) * 2^20 / 200), 0xFFFFF)` (R182), ties as `nearest` breaks them (log 25). -/
def nearestTempCode (t : ℚ) : Int := min (nearest ((t + 50) * 2 ^ 20 / 200)) 0xFFFFF

end Sys2Proof.Machine
end

