-- ==== Sys2Proof/Certificates/Slice0/Obligations.lean ====
section
/-! DEFINITION. The statements for the provers. Each docstring names the rule of spec/ it formalises. A next state is
written out as the old state with the changed fields, so that it says the frame as well: every field not named keeps its
value. The fields `schedule`, `reply`, `history`, `cmdTxns`, `draws` and `dp` are the model's own (logs 1, 5, 9, 11): what a
statement says of them is the model's bookkeeping and no rule of the spec. Entering a state uses up the completed action of
the one before, so `answer` and `expired` are cleared with it (R130). -/

open Sys2Proof Sys2Proof.Machine

/-! ### Commands: 40_commands.md -/

/-- R100, as the host's step and at the level of the instruction: a CTRL write whose CMD is 1, 2 or 3 is accepted in IDLE,
and CMD 2 only with CAL_OK. -/
def Obligations.AcceptedCommandWrite : Prop :=
  (∀ (s : State) (v : Word) (rest : List Event) (c : Cmd),
    s.schedule = .hostWrite 0x00#6 4 v :: rest → v.extractLsb' 0 3 = cmdCode (some c) →
    s.seq = .idle → (c = .measure → s.calOk = true) →
    step s = .next { s with
      busy := true, done := false, valid := false, calOk := (if c = .measure then s.calOk else false),
      curCmd := some c, err := ErrorReg.zero, calPolls := 0#4, busyPolls := 0#4, devstat := 0#8, res := Results.zero,
      seq := (if c = .measure then .trigWr else .resetWr),
      inFlight := some (if c = .measure then .wrTrigger else .wrSoftreset), answer := none, wait := none,
      expired := false, cmdTxns := 0, schedule := rest, reply := some .writeDone }) ∧
  (∀ (ign : BitVec 29) (s : State), s.seq = .idle →
    exec (.init ign) s = .next { s with
      busy := true, done := false, valid := false, calOk := false, curCmd := some .init, err := ErrorReg.zero,
      calPolls := 0#4, busyPolls := 0#4, devstat := 0#8, res := Results.zero,
      seq := .resetWr, inFlight := some .wrSoftreset, answer := none, wait := none, expired := false, cmdTxns := 0 } ∧
    exec (.read ign) s = .next { s with
      busy := true, done := false, valid := false, calOk := false, curCmd := some .read, err := ErrorReg.zero,
      calPolls := 0#4, busyPolls := 0#4, devstat := 0#8, res := Results.zero,
      seq := .resetWr, inFlight := some .wrSoftreset, answer := none, wait := none, expired := false, cmdTxns := 0 } ∧
    (s.calOk = true → exec (.measure ign) s = .next { s with
      busy := true, done := false, valid := false, curCmd := some .measure, err := ErrorReg.zero,
      calPolls := 0#4, busyPolls := 0#4, devstat := 0#8, res := Results.zero,
      seq := .trigWr, inFlight := some .wrTrigger, answer := none, wait := none, expired := false, cmdTxns := 0 }))

/-- R101, as the host's step and at the level of the instruction: a CTRL write with CMD not 0 is rejected while a command
runs, for a reserved code, and for MEASURE without CAL_OK; REJ is set and nothing else of the block changes. -/
def Obligations.RejectedCommandWrite : Prop :=
  (∀ (s : State) (v : Word) (rest : List Event),
    s.schedule = .hostWrite 0x00#6 4 v :: rest → v.extractLsb' 0 3 ≠ 0#3 →
    (s.seq ≠ .idle ∨ 4 ≤ (v.extractLsb' 0 3).toNat ∨ (v.extractLsb' 0 3 = 2#3 ∧ s.calOk = false)) →
    step s = .next { s with rej := true, schedule := rest, reply := some .writeDone }) ∧
  (∀ (ign : BitVec 29) (s : State),
    (s.seq ≠ .idle → exec (.init ign) s = .next { s with rej := true } ∧
      exec (.read ign) s = .next { s with rej := true }) ∧
    (s.seq ≠ .idle ∨ s.calOk = false → exec (.measure ign) s = .next { s with rej := true }))

/-- R102: NOP changes nothing in any state, and every CTRL word with bits 2:0 clear is a NOP. -/
def Obligations.NopChangesNothing : Prop :=
  (∀ (ign : BitVec 29) (s : State), exec (.nop ign) s = .next s) ∧
  (∀ (s : State) (v : Word) (rest : List Event),
    s.schedule = .hostWrite 0x00#6 4 v :: rest → v.extractLsb' 0 3 = 0#3 →
    step s = .next { s with schedule := rest, reply := some .writeDone })

/-- R106: the reserved codes are rejected in every state. -/
def Obligations.ReservedCodesAreRejected : Prop :=
  (∀ (ign : BitVec 29) (s : State),
    exec (.rsvd4 ign) s = .next { s with rej := true } ∧ exec (.rsvd5 ign) s = .next { s with rej := true } ∧
    exec (.rsvd6 ign) s = .next { s with rej := true } ∧ exec (.rsvd7 ign) s = .next { s with rej := true }) ∧
  (∀ (s : State) (v : Word) (rest : List Event),
    s.schedule = .hostWrite 0x00#6 4 v :: rest → v.getLsbD 2 = true →
    step s = .next { s with rej := true, schedule := rest, reply := some .writeDone })

/-- R80: "Decoding reads CMD = v[2:0] and nothing else", so two CTRL words with equal CMD do the same in every state. -/
def Obligations.CommandWordBitsAboveCmdIgnored : Prop :=
  ∀ (s : State) (v w : Word) (rest : List Event), v.extractLsb' 0 3 = w.extractLsb' 0 3 →
    step { s with schedule := .hostWrite 0x00#6 4 v :: rest } =
      step { s with schedule := .hostWrite 0x00#6 4 w :: rest }

/-! ### Register writes and reads -/

/-- R111, as the host's step and at the level of the instruction: v[1] clears DONE, v[2] clears REJ, no other bit does
anything, and `irq` follows. -/
def Obligations.StatusWriteOneToClear : Prop :=
  (∀ (s : State) (v : Word) (rest : List Event), s.schedule = .hostWrite 0x04#6 4 v :: rest →
    ∃ t, step s = .next t ∧
      t = { s with
        done := s.done && !v.getLsbD 1, rej := s.rej && !v.getLsbD 2, schedule := rest, reply := some .writeDone } ∧
      irq t = ((t.done && s.doneIe) || (t.rej && s.rejIe))) ∧
  (∀ (b ign0 : Bool) (ign : BitVec 29) (s : State),
    exec (.ackDone b ign0 ign) s = .next { s with done := false, rej := s.rej && !b } ∧
    exec (.ackRej b ign0 ign) s = .next { s with done := s.done && !b, rej := false })

/-- R112, at both levels, with `irq` re-evaluated. -/
def Obligations.IntEnWriteSetsEnables : Prop :=
  (∀ (doneIe rejIe : Bool) (ign : BitVec 30) (s : State),
    exec (.wrIntEn doneIe rejIe ign) s = .next { s with doneIe := doneIe, rejIe := rejIe }) ∧
  (∀ (s : State) (v : Word) (rest : List Event), s.schedule = .hostWrite 0x38#6 4 v :: rest →
    ∃ t, step s = .next t ∧
      t = { s with
        doneIe := v.getLsbD 0, rejIe := v.getLsbD 1, schedule := rest, reply := some .writeDone } ∧
      irq t = ((s.done && v.getLsbD 0) || (s.rej && v.getLsbD 1)))

/-- R113: a defined write to any register but CTRL, STATUS and INT_EN has no effect and raises no error. -/
def Obligations.ReadOnlyWritesIgnored : Prop :=
  ∀ (s : State) (off : BitVec 6) (v : Word) (rest : List Event),
    s.schedule = .hostWrite off 4 v :: rest → off.toNat % 4 = 0 →
    off ≠ 0x00#6 → off ≠ 0x04#6 → off ≠ 0x38#6 →
    step s = .next { s with schedule := rest, reply := some .writeDone }

/-- R114: a read returns the register with its reserved bits 0 and changes nothing of the block; CTRL reads 0, every other
register as laid out; while BUSY = 1 (in a state that meets the invariant) ERROR and every result register read 0. -/
def Obligations.HostReadReturnsRegister : Prop :=
  ∀ (s : State) (r : Reg) (rest : List Event), s.schedule = .hostRead r.offset 4 :: rest →
    step s = .next { s with schedule := rest, reply := some (.readData (readReg r s)) } ∧
    readReg .ctrl s = 0#32 ∧
    readReg .status s = 0#17 ++ cmdCode s.curCmd ++ seqCode s.seq ++ 0#2 ++ BitVec.ofBool (errFlag s) ++
      BitVec.ofBool s.calOk ++ BitVec.ofBool s.valid ++ BitVec.ofBool s.rej ++ BitVec.ofBool s.done ++
      BitVec.ofBool s.busy ∧
    readReg .param s = 0x00000A38#32 ∧
    readReg .error s = 0#20 ++ seqCode s.err.phase ++ 0#2 ++ errCauseCode s.err.cause ++ 0#2 ++ kindCode s.err.kind ∧
    readReg .polls s = 0#20 ++ s.busyPolls ++ 0#4 ++ s.calPolls ∧ readReg .devstat s = 0#24 ++ s.devstat ∧
    readReg .rawstat s = 0#24 ++ s.res.rawstat ∧ readReg .fieldHi s = 0#24 ++ s.res.fieldHi ∧
    readReg .fieldLo s = s.res.fieldLo ∧ readReg .humCode s = 0#12 ++ s.res.humCode ∧
    readReg .tempCode s = 0#12 ++ s.res.tempCode ∧ readReg .humF64Lo s = s.res.humF64Lo ∧
    readReg .humF64Hi s = s.res.humF64Hi ∧ readReg .tempF64Lo s = s.res.tempF64Lo ∧
    readReg .tempF64Hi s = s.res.tempF64Hi ∧
    readReg .intEn s = 0#30 ++ BitVec.ofBool s.rejIe ++ BitVec.ofBool s.doneIe ∧
    (Inv s → s.busy = true → r ∈ [.error, .rawstat, .fieldHi, .fieldLo, .humCode, .tempCode, .humF64Lo, .humF64Hi,
      .tempF64Lo, .tempF64Hi] → readReg r s = 0#32)

/-- R61: an access of another width or alignment faults, and a defined access never does. -/
def Obligations.UndefinedAccessFaults : Prop :=
  ∀ (s : State) (off : BitVec 6) (width : Nat) (v : Word) (rest : List Event),
    (¬(width = 4 ∧ off.toNat % 4 = 0) →
      step { s with schedule := .hostRead off width :: rest } = .fault (.accessError off.toNat width) ∧
      step { s with schedule := .hostWrite off width v :: rest } = .fault (.accessError off.toNat width)) ∧
    (width = 4 → off.toNat % 4 = 0 →
      (∃ t, step { s with schedule := .hostRead off width :: rest } = .next t) ∧
      (∃ t, step { s with schedule := .hostWrite off width v :: rest } = .next t))

/-- R63: register bit 8k+j is bit j of the byte at offset off+k. -/
def Obligations.WindowIsLittleEndian : Prop :=
  ∀ (s : State) (r : Reg) (k j : Nat), k < 4 → j < 8 →
    (readReg r s).getLsbD (8 * k + j) = (windowByte (r.offset + BitVec.ofNat 6 k) s).getLsbD j

/-! ### Sequencer steps: 41_sequencer.md -/

/-- R135. -/
def Obligations.SoftResetAnswered : Prop :=
  ∀ (s : State), s.seq = .resetWr →
    (s.answer = some (.ok []) → exec (.wrSoftreset .ok) s = .next { s with
      seq := .resetWait, inFlight := none, answer := none, wait := some 20, expired := false }) ∧
    (∀ c, s.answer = some (.err c) → exec (.wrSoftreset (.err c)) s = .next { s with
      err := { kind := .comm, cause := some c, phase := .resetWr }, busy := false, done := true,
      seq := .idle, inFlight := none, answer := none, wait := none, expired := false })

/-- R142. -/
def Obligations.TriggerAnswered : Prop :=
  ∀ (s : State), s.seq = .trigWr →
    (s.answer = some (.ok []) → exec (.wrTrigger .ok) s = .next { s with
      seq := .trigWait, inFlight := none, answer := none, wait := some 80, expired := false }) ∧
    (∀ c, s.answer = some (.err c) → exec (.wrTrigger (.err c)) s = .next { s with
      err := { kind := .comm, cause := some c, phase := .trigWr }, busy := false, done := true,
      seq := .idle, inFlight := none, answer := none, wait := none, expired := false })

/-- R138 with R139: the calibration poll, its success under INIT and under READ, its retry, its exhaustion and its
communication failure. -/
def Obligations.CalibrationReadAnswered : Prop :=
  ∀ (s : State), s.seq = .calRd →
    (∀ st : Byte, s.answer = some (.ok [st]) →
      (st.getLsbD 3 = true → s.curCmd = some .init →
        exec (.rdStatus (.ok st)) s = .next { s with
          devstat := st, calOk := true, busy := false, done := true,
          seq := .idle, inFlight := none, answer := none, wait := none, expired := false }) ∧
      (st.getLsbD 3 = true → s.curCmd = some .read →
        exec (.rdStatus (.ok st)) s = .next { s with
          devstat := st, calOk := true,
          seq := .trigWr, inFlight := some .wrTrigger, answer := none, wait := none, expired := false }) ∧
      (st.getLsbD 3 = false → s.calPolls.toNat < 10 →
        exec (.rdStatus (.ok st)) s = .next { s with
          devstat := st, seq := .calWait, inFlight := none, answer := none, wait := some 10, expired := false }) ∧
      (st.getLsbD 3 = false → ¬ s.calPolls.toNat < 10 →
        exec (.rdStatus (.ok st)) s = .next { s with
          devstat := st, err := { kind := .calFailed, cause := none, phase := .calRd }, busy := false, done := true,
          seq := .idle, inFlight := none, answer := none, wait := none, expired := false })) ∧
    (∀ c, s.answer = some (.err c) → exec (.rdStatus (.err c)) s = .next { s with
      err := { kind := .comm, cause := some c, phase := .calRd }, busy := false, done := true,
      seq := .idle, inFlight := none, answer := none, wait := none, expired := false })

/-- R145 with R147: the busy poll, ready, retried, exhausted and failed. -/
def Obligations.BusyReadAnswered : Prop :=
  ∀ (s : State), s.seq = .busyRd →
    (∀ st : Byte, s.answer = some (.ok [st]) →
      (st.getLsbD 7 = false →
        exec (.rdStatus (.ok st)) s = .next { s with
          devstat := st, seq := .dataRd, inFlight := some .rdSample, answer := none, wait := none,
          expired := false }) ∧
      (st.getLsbD 7 = true → s.busyPolls.toNat < 10 →
        exec (.rdStatus (.ok st)) s = .next { s with
          devstat := st, seq := .busyWait, inFlight := none, answer := none, wait := some 10, expired := false }) ∧
      (st.getLsbD 7 = true → ¬ s.busyPolls.toNat < 10 →
        exec (.rdStatus (.ok st)) s = .next { s with
          devstat := st, err := { kind := .stillBusy, cause := none, phase := .busyRd }, busy := false, done := true,
          seq := .idle, inFlight := none, answer := none, wait := none, expired := false })) ∧
    (∀ c, s.answer = some (.err c) → exec (.rdStatus (.err c)) s = .next { s with
      err := { kind := .comm, cause := some c, phase := .busyRd }, busy := false, done := true,
      seq := .idle, inFlight := none, answer := none, wait := none, expired := false })

/-- R148: the commit, with the codes by the source's formulas and the binary64 words by the values they stand for, and
the failed sample read, which leaves an open value (`x`) in the capture buffer only. -/
def Obligations.SampleReadAnswered : Prop :=
  ∀ (s : State), s.seq = .dataRd →
    (∀ d : Sample, s.answer = some (.ok d.bytes) → ∃ (dp : Datapath) (hum temp : BitVec 64) (hc tc : BitVec 20),
      hc.toNat = d.d1.toNat * 2 ^ 12 + d.d2.toNat * 2 ^ 4 + d.d3.toNat / 2 ^ 4 ∧
      tc.toNat = d.d3.toNat % 2 ^ 4 * 2 ^ 16 + d.d4.toNat * 2 ^ 8 + d.d5.toNat ∧
      hum = f64 (hc.toNat * 100) ∧ binary64Value hum = hc.toNat * 100 / 2 ^ 20 ∧
      temp = f64 (tc.toNat * 200 - 50 * 2 ^ 20) ∧ binary64Value temp = tc.toNat * 200 / 2 ^ 20 - 50 ∧
      exec (.rdSample (.ok d)) s = .next { s with
        sample := d, valid := true, dp := dp,
        res := {
          rawstat := d.d0, fieldHi := d.d1, fieldLo := d.d2 ++ d.d3 ++ d.d4 ++ d.d5, humCode := hc, tempCode := tc,
          humF64Lo := hum.extractLsb' 0 32, humF64Hi := hum.extractLsb' 32 32,
          tempF64Lo := temp.extractLsb' 0 32, tempF64Hi := temp.extractLsb' 32 32 },
        busy := false, done := true, seq := .idle, inFlight := none, answer := none, wait := none,
        expired := false }) ∧
    (∀ c, s.answer = some (.err c) → ∃ x, exec (.rdSample (.err c)) s = .next { s with
      err := { kind := .comm, cause := some c, phase := .dataRd }, busy := false, done := true,
      seq := .idle, inFlight := none, answer := none, wait := none, expired := false, sample := x,
      draws := s.draws + 1 })

/-- R13, R49, R131 and R132: the oracle's step. A draw from the closed list ends the transaction in flight and waits, with
the block unchanged, for the sequencer's step. The history is the model's record of it (log 11). -/
def Obligations.OracleAnswersTransactionInFlight : Prop :=
  ∀ (s : State) (f : Frame) (a : Answer) (rest : List Event),
    s.schedule = .busAnswer a :: rest → s.inFlight = some f →
    (∀ data, a = .ok data → data.length = deviceBytes f) →
    (a = .err .dataNack → f = .wrSoftreset ∨ f = .wrTrigger) →
    step s = .next { s with
      inFlight := none, answer := some a, history := { frame := f, result := a.result } :: s.history,
      cmdTxns := s.cmdTxns + 1, schedule := rest }

/-- R130: a step that is not enabled. That the instruction or the event then changes nothing is the model's choice
(log 2). -/
def Obligations.AnswerNeedsItsTransaction : Prop :=
  (∀ (s : State),
    (∀ a, s.seq ≠ .resetWr ∨ s.answer ≠ some (answerOfWrite a) → exec (.wrSoftreset a) s = .next s) ∧
    (∀ a, s.seq ≠ .trigWr ∨ s.answer ≠ some (answerOfWrite a) → exec (.wrTrigger a) s = .next s) ∧
    (∀ a, (s.seq ≠ .calRd ∧ s.seq ≠ .busyRd) ∨ s.answer ≠ some (answerOfStatus a) →
      exec (.rdStatus a) s = .next s) ∧
    (∀ a, s.seq ≠ .dataRd ∨ s.answer ≠ some (answerOfSample a) → exec (.rdSample a) s = .next s)) ∧
  (∀ (s : State) (rest : List Event),
    (∀ a, s.schedule = .busAnswer a :: rest → s.inFlight = none → step s = .next { s with schedule := rest }) ∧
    (s.schedule = .timerExpires :: rest → s.wait = none → step s = .next { s with schedule := rest }) ∧
    (s.schedule = .sequencer :: rest → s.answer = none → s.expired = false →
      step s = .next { s with schedule := rest }))

/-- R133, and R136, R140, R144 and R146 with R137 and R143: the timer's step ends the wait and nothing else of the block
changes; the sequencer's step in each wait state then counts a status read and starts it. Over all states the 4-bit count of
15 wraps to 0, which is the model's choice (log 14); in a state of the invariant the count is at most 9 here. -/
def Obligations.WaitExpiryStartsRead : Prop :=
  (∀ (s : State) (rest : List Event), s.schedule = .timerExpires :: rest → s.wait ≠ none →
    step s = .next { s with wait := none, expired := true, schedule := rest }) ∧
  (∀ (s : State) (rest : List Event), s.schedule = .sequencer :: rest → s.expired = true →
    (s.seq = .resetWait ∨ s.seq = .calWait → step s = .next { s with
      calPolls := s.calPolls + 1#4, seq := .calRd, inFlight := some .rdStatus, answer := none, wait := none,
      expired := false, schedule := rest }) ∧
    (s.seq = .trigWait ∨ s.seq = .busyWait → step s = .next { s with
      busyPolls := s.busyPolls + 1#4, seq := .busyRd, inFlight := some .rdStatus, answer := none, wait := none,
      expired := false, schedule := rest }))

/-- R130: a state other than IDLE is left only by the sequencer's step, once its action has completed, or by a block reset,
and IDLE only by a CTRL write; an answer comes only from the oracle and an expiry only from the timer. So no host access
skips a wait (R133) and a transaction that is never answered holds the block (R153). -/
def Obligations.SequencerMovesOnlyByItsAction : Prop :=
  ∀ (s t : State), Inv s → step s = .next t →
    (t.seq ≠ s.seq → s.seq = .idle → ∃ v rest, s.schedule = .hostWrite 0x00#6 4 v :: rest) ∧
    (t.seq ≠ s.seq → s.seq ≠ .idle →
      (∃ rest, s.schedule = .blockReset :: rest) ∨
      ((∃ rest, s.schedule = .sequencer :: rest) ∧
        ((s.seq.frame ≠ none ∧ s.answer ≠ none) ∨ (s.seq.delay ≠ none ∧ s.expired = true)))) ∧
    (s.answer = none → t.answer ≠ none → s.inFlight = s.seq.frame ∧ s.inFlight ≠ none ∧
      ∃ a rest, s.schedule = .busAnswer a :: rest ∧ t.answer = some a) ∧
    (s.expired = false → t.expired = true → s.wait = s.seq.delay ∧ s.wait ≠ none ∧
      ∃ rest, s.schedule = .timerExpires :: rest)

/-- The edges of the sequencer (R100, R135 to R148, R192), in every state. -/
def Obligations.SequencerEdges : Prop :=
  ∀ (s t : State), step s = .next t →
    t.seq = s.seq ∨ t.seq ∈ s.seq.successors ∨ (t.seq = .idle ∧ ∃ rest, s.schedule = .blockReset :: rest)

/-- R153: with a transaction in flight, everything but its answer and a block reset leaves the block BUSY in the same
state, and every CTRL write other than NOP sets REJ; so it is in a whole behaviour, for ever; and from every such state
there is a behaviour, fair to the timer and the sequencer, in which the answer never comes. -/
def Obligations.UnansweredTransactionHolds : Prop :=
  (∀ (s t : State), Inv s → s.inFlight ≠ none → step s = .next t →
    (∀ rest, s.schedule ≠ .blockReset :: rest) → (∀ a rest, s.schedule ≠ .busAnswer a :: rest) →
    t.seq = s.seq ∧ t.inFlight = s.inFlight ∧ t.busy = true ∧ t.done = false ∧ t.valid = s.valid ∧ t.err = s.err ∧
    t.history = s.history ∧
    (∀ v rest, s.schedule = .hostWrite 0x00#6 4 v :: rest → v.extractLsb' 0 3 ≠ 0#3 → t.rej = true)) ∧
  (∀ (st : Nat → State) (ev : Nat → Event), Behaviour st ev → Inv (st 0) → (st 0).inFlight ≠ none →
    (∀ n, ev n ≠ .blockReset ∧ ∀ a, ev n ≠ .busAnswer a) →
    ∀ n, (st n).seq = (st 0).seq ∧ (st n).inFlight = (st 0).inFlight ∧ (st n).busy = true ∧ (st n).done = false) ∧
  (∀ s : State, Inv s → s.inFlight ≠ none → ∃ (st : Nat → State) (ev : Nat → Event),
    Behaviour st ev ∧ TimerFair st ev ∧ SequencerFair st ev ∧ st 0 = s ∧
    ∀ n, ev n ≠ .blockReset ∧ ∀ a, ev n ≠ .busAnswer a)

/-- R13 and R133: in a behaviour fair to the timer, every pending wait holds, with its state, until it expires or a block
reset ends it, and one of the two happens. Where the sequencer is weakly fair too, which is the model's own premise
(log 12), the status read of the wait's poll then starts, unless a block reset comes first. -/
def Obligations.PendingWaitEndsUnderFairness : Prop :=
  ∀ (st : Nat → State) (ev : Nat → Event), Behaviour st ev → TimerFair st ev → Inv (st 0) →
    ∀ n, (st n).wait ≠ none →
      (∃ m, n ≤ m ∧ (∀ k, n ≤ k → k ≤ m → (st k).wait = (st n).wait ∧ (st k).seq = (st n).seq) ∧
        ((ev m = .timerExpires ∧ (st (m + 1)).wait = none ∧ (st (m + 1)).expired = true ∧
          (st (m + 1)).seq = (st n).seq) ∨ ev m = .blockReset)) ∧
      (SequencerFair st ev → ∃ m, n ≤ m ∧ (ev m = .blockReset ∨
        ((st (m + 1)).inFlight = some .rdStatus ∧
          ((st n).seq = .resetWait ∨ (st n).seq = .calWait → (st (m + 1)).seq = .calRd ∧
            (st (m + 1)).calPolls.toNat = (st n).calPolls.toNat + 1) ∧
          ((st n).seq = .trigWait ∨ (st n).seq = .busyWait → (st (m + 1)).seq = .busyRd ∧
            (st (m + 1)).busyPolls.toNat = (st n).busyPolls.toNat + 1))))

/-- The source's calibration-poll property (R134, R149): if the first `n` polls show bit 3 clear and the next shows it
set, INIT ends calibrated after exactly n + 1 reads, for every n below 10. -/
def Obligations.CalibrationSucceedsAtNthPoll : Prop :=
  ∀ (s : State) (bytes : List Byte) (last : Byte),
    s.seq = .idle → bytes.length < 10 → (∀ b ∈ bytes, b.getLsbD 3 = false) → last.getLsbD 3 = true →
    ∃ t : State, runSteps (initSchedule bytes last).length { s with schedule := initSchedule bytes last } = .next t ∧
      t.seq = .idle ∧ t.busy = false ∧ t.done = true ∧ t.calOk = true ∧ t.err = ErrorReg.zero ∧ t.valid = false ∧
      t.calPolls.toNat = bytes.length + 1 ∧ t.devstat = last ∧
      t.history = [{ frame := .rdStatus, result := .ok [last] }] ++
        (bytes.map fun b => { frame := .rdStatus, result := .ok [b] }).reverse ++
        [{ frame := .wrSoftreset, result := .ok [] }] ++ s.history

/-- The source's two timeouts. R134 and R138: ten polls with bit 3 clear end INIT in CAL_FAILED after exactly ten reads. R141
and R145: ten polls with bit 7 set end MEASURE in STILL_BUSY after exactly ten reads and no sample read. -/
def Obligations.TenFailedPollsEndTheCommand : Prop :=
  (∀ (s : State) (bytes : List Byte) (last : Byte),
    s.seq = .idle → bytes.length = 9 → (∀ b ∈ bytes, b.getLsbD 3 = false) → last.getLsbD 3 = false →
    ∃ t : State, runSteps (initSchedule bytes last).length { s with schedule := initSchedule bytes last } = .next t ∧
      t.seq = .idle ∧ t.done = true ∧ t.calOk = false ∧
      t.err = { kind := .calFailed, cause := none, phase := .calRd } ∧ t.calPolls.toNat = 10 ∧ t.devstat = last ∧
      t.history.length = s.history.length + 11) ∧
  (∀ (s : State) (bytes : List Byte) (last : Byte),
    s.seq = .idle → s.calOk = true → bytes.length = 9 → (∀ b ∈ bytes, b.getLsbD 7 = true) → last.getLsbD 7 = true →
    ∃ t : State,
      runSteps (measureSchedule bytes last).length { s with schedule := measureSchedule bytes last } = .next t ∧
      t.seq = .idle ∧ t.done = true ∧ t.calOk = true ∧
      t.err = { kind := .stillBusy, cause := none, phase := .busyRd } ∧ t.busyPolls.toNat = 10 ∧ t.devstat = last ∧
      t.history.length = s.history.length + 11 ∧
      (t.history.take 11).countP (fun x => x.frame = .rdSample) = 0)

/-- R105: READ, with every write acknowledged, the first calibration poll calibrated and the first busy poll ready, is one
soft reset, one status read, one trigger, one status read and one sample read, in that order, and ends in a
Measurement. -/
def Obligations.ReadRunsInitThenMeasure : Prop :=
  ∀ (s : State) (c b : Byte) (d : Sample), s.seq = .idle → c.getLsbD 3 = true → b.getLsbD 7 = false →
    ∃ t : State,
      runSteps (readSchedule c b d).length { s with schedule := readSchedule c b d } = .next t ∧
      t.seq = .idle ∧ t.busy = false ∧ t.done = true ∧ t.valid = true ∧ t.calOk = true ∧ t.curCmd = some .read ∧
      t.err = ErrorReg.zero ∧ t.calPolls = 1#4 ∧ t.busyPolls = 1#4 ∧ t.devstat = b ∧ t.rej = s.rej ∧
      t.res.rawstat = d.d0 ∧ t.res.humCode = d.d1 ++ d.d2 ++ d.d3.extractLsb' 4 4 ∧
      t.res.tempCode = d.d3.extractLsb' 0 4 ++ d.d4 ++ d.d5 ∧
      t.res.humF64Hi ++ t.res.humF64Lo = convHum64 t.res.humCode ∧
      t.res.tempF64Hi ++ t.res.tempF64Lo = convTemp64 t.res.tempCode ∧
      t.history = [{ frame := .rdSample, result := .ok d.bytes }, { frame := .rdStatus, result := .ok [b] },
        { frame := .wrTrigger, result := .ok [] }, { frame := .rdStatus, result := .ok [c] },
        { frame := .wrSoftreset, result := .ok [] }] ++ s.history

/-! ### Datapath: 42_extract_convert.md -/

/-- R170: F40 = {d1, d2, d3, d4, d5}, d1 in bits 39:32, as a number. -/
def Obligations.ExtractAssemblesField : Prop :=
  ∀ (d1 d2 d3 d4 d5 : Byte) (s : State), ∃ f40 : BitVec 40,
    exec (.extract d1 d2 d3 d4 d5) s = .next { s with dp := { s.dp with f40 := f40 } } ∧
    f40.toNat = d1.toNat * 2 ^ 32 + d2.toNat * 2 ^ 24 + d3.toNat * 2 ^ 16 + d4.toNat * 2 ^ 8 + d5.toNat

/-- R172 and R173: the codes of a field, equal to the source's formulas on the bytes the field was assembled from. -/
def Obligations.ExtractedCodes : Prop :=
  (∀ (f40 : BitVec 40) (s : State), ∃ hc tc : BitVec 20,
    exec (.extractHum f40) s = .next { s with dp := { s.dp with hc := hc } } ∧ hc.toNat = f40.toNat / 2 ^ 20 ∧
    exec (.extractTemp f40) s = .next { s with dp := { s.dp with tc := tc } } ∧ tc.toNat = f40.toNat % 2 ^ 20) ∧
  (∀ d1 d2 d3 d4 d5 : Byte,
    (extractHum (extract d1 d2 d3 d4 d5)).toNat = d1.toNat <<< 12 ||| d2.toNat <<< 4 ||| d3.toNat >>> 4 ∧
    (extractTemp (extract d1 d2 d3 d4 d5)).toNat = (d3.toNat &&& 0x0F) <<< 16 ||| d4.toNat <<< 8 ||| d5.toNat)

/-- R174: the humidity is hc * 100 / 2^20 exactly and lies in [0, 100). -/
def Obligations.HumidityIsExact : Prop :=
  ∀ (hc : BitVec 20) (s : State), ∃ m : Int,
    exec (.convHum hc) s = .next { s with dp := { s.dp with hum := m } } ∧
    dyadic m = (hc.toNat : ℚ) * 100 / 2 ^ 20 ∧ 0 ≤ dyadic m ∧ dyadic m < 100

/-- R175: the temperature is tc * 200 / 2^20 - 50 exactly and lies in [-50, 150), negative below tc = 0x40000 and zero
exactly there. -/
def Obligations.TemperatureIsExact : Prop :=
  ∀ (tc : BitVec 20) (s : State), ∃ m : Int,
    exec (.convTemp tc) s = .next { s with dp := { s.dp with temp := m } } ∧
    dyadic m = (tc.toNat : ℚ) * 200 / 2 ^ 20 - 50 ∧ -50 ≤ dyadic m ∧ dyadic m < 150 ∧
    (dyadic m < 0 ↔ tc.toNat < 0x40000) ∧ (dyadic m = 0 ↔ tc = 0x40000#20)

/-- R177: the word stands for exactly M / 2^20, is +0.0 for zero and a normal number with M's sign otherwise. -/
def Obligations.BinaryEncodingIsExact : Prop :=
  ∀ (m : Int) (s : State), m.natAbs < 2 ^ 52 → ∃ w : BitVec 64,
    exec (.f64 m) s = .next { s with dp := { s.dp with f64 := w } } ∧
    binary64Value w = (m : ℚ) / 2 ^ 20 ∧ (m = 0 → w = 0#64) ∧
    (m ≠ 0 → w.getLsbD 63 = decide (m < 0) ∧
      1003 ≤ (w.extractLsb' 52 11).toNat ∧ (w.extractLsb' 52 11).toNat ≤ 1054)

/-- R178: CONV_HUM64 and CONV_TEMP64 are F64 of the scaled codes, with the rule's examples. That an operation run on its own
leaves its word in `hum64` or `temp64`, and F64's latch `f64` with it, is the model's choice (log 9). -/
def Obligations.ConvertedWords : Prop :=
  (∀ (c : BitVec 20), -52428800 ≤ convHum c ∧ convHum c < 157286400 ∧ -52428800 ≤ convTemp c ∧
    convTemp c < 157286400) ∧
  (∀ (c : BitVec 20) (s : State), ∃ wh wt : BitVec 64,
    exec (.convHum64 c) s = .next { s with dp := { s.dp with f64 := wh, hum64 := wh } } ∧
    wh = f64 (c.toNat * 100) ∧ binary64Value wh = (c.toNat : ℚ) * 100 / 2 ^ 20 ∧
    exec (.convTemp64 c) s = .next { s with dp := { s.dp with f64 := wt, temp64 := wt } } ∧
    wt = f64 (c.toNat * 200 - 50 * 2 ^ 20) ∧ binary64Value wt = (c.toNat : ℚ) * 200 / 2 ^ 20 - 50) ∧
  convTemp64 0x40000#20 = 0#64 ∧ convHum64 0#20 = 0#64 ∧ convHum64 0xFFFFF#20 = 0x4058FFFE70000000#64 ∧
  convTemp64 0#20 = 0xC049000000000000#64 ∧ convTemp64 0xFFFFF#20 = 0x4062BFFE70000000#64

/-- R181: both conversions are strictly increasing, adjacent codes differ by one code step, and codes with equal words are
equal. -/
def Obligations.ConversionsAreMonotone : Prop :=
  (∀ a b : BitVec 20, a.toNat < b.toNat →
    dyadic (convHum a) < dyadic (convHum b) ∧ dyadic (convTemp a) < dyadic (convTemp b)) ∧
  (∀ a b : BitVec 20, b.toNat = a.toNat + 1 →
    dyadic (convHum b) - dyadic (convHum a) = 100 / 2 ^ 20 ∧
    dyadic (convTemp b) - dyadic (convTemp a) = 200 / 2 ^ 20) ∧
  (∀ a b : BitVec 20, (convHum64 a = convHum64 b → a = b) ∧ (convTemp64 a = convTemp64 b → a = b))

/-- R182: a nearest code of a value in range, saturated, fits in 20 bits and decodes back to the value within one code step.
R182 does not say which of two equally near codes `round` takes, so the statement holds for both; the code of the test
encoder, which breaks the tie upwards by the model's choice (log 25), is one of them. -/
def Obligations.NearestCodeRoundTrip : Prop :=
  (∀ h : ℚ, 0 ≤ h → h ≤ 100 →
    (∃ n, IsNearest n (h * 2 ^ 20 / 100) ∧ nearestHumCode h = min n 0xFFFFF) ∧
    ∀ n, IsNearest n (h * 2 ^ 20 / 100) → ∃ hc : BitVec 20, (hc.toNat : Int) = min n 0xFFFFF ∧
      |dyadic (convHum hc) - h| ≤ 100 / 2 ^ 20) ∧
  (∀ t : ℚ, -50 ≤ t → t ≤ 150 →
    (∃ n, IsNearest n ((t + 50) * 2 ^ 20 / 200) ∧ nearestTempCode t = min n 0xFFFFF) ∧
    ∀ n, IsNearest n ((t + 50) * 2 ^ 20 / 200) → ∃ tc : BitVec 20, (tc.toNat : Int) = min n 0xFFFFF ∧
      |dyadic (convTemp tc) - t| ≤ 200 / 2 ^ 20)

/-! ### Whole-machine rules -/

/-- 10_state.md section 8: the result registers are written by the commit of DATA_RD, cleared by the acceptance of a
command and by reset, and by no other step. -/
def Obligations.ResultsChangeOnlyAtCommitOrAcceptance : Prop :=
  ∀ (s t : State), step s = .next t → t.res ≠ s.res →
    (t.res = Results.zero ∧ ((∃ rest, s.schedule = .blockReset :: rest) ∨
      (s.seq = .idle ∧ t.busy = true ∧ ∃ v rest, s.schedule = .hostWrite 0x00#6 4 v :: rest))) ∨
    (s.seq = .dataRd ∧ t.seq = .idle ∧ t.valid = true ∧ t.done = true ∧
      ∃ data rest, s.answer = some (.ok data) ∧ s.schedule = .sequencer :: rest)

/-- 10_state.md section 4 and R197: ERROR is overwritten only by Fail, in the step that ends a command, and cleared only by
the next acceptance or by reset. -/
def Obligations.ErrorChangesOnlyAtFailureOrAcceptance : Prop :=
  ∀ (s t : State), step s = .next t → t.err ≠ s.err →
    (t.err = ErrorReg.zero ∧ ((∃ rest, s.schedule = .blockReset :: rest) ∨
      (s.seq = .idle ∧ t.busy = true ∧ ∃ v rest, s.schedule = .hostWrite 0x00#6 4 v :: rest))) ∨
    (errFlag t = true ∧ t.err.phase = s.seq ∧ t.seq = .idle ∧ t.busy = false ∧ t.done = true ∧
      t.valid = s.valid ∧ t.res = s.res ∧ t.calPolls = s.calPolls ∧ t.busyPolls = s.busyPolls ∧
      t.calOk = s.calOk ∧ t.curCmd = s.curCmd ∧ t.rej = s.rej ∧ t.doneIe = s.doneIe ∧ t.rejIe = s.rejIe)

/-- R28: CAL_OK is set only by a calibration read with bit 3 set, cleared only by reset and by the acceptance of INIT or
READ, and a trigger is started from IDLE only with CAL_OK = 1. -/
def Obligations.CalibrationFlagRule : Prop :=
  ∀ (s t : State), step s = .next t →
    (s.calOk = false → t.calOk = true →
      s.seq = .calRd ∧ ∃ st rest, s.answer = some (.ok [st]) ∧ s.schedule = .sequencer :: rest ∧
        st.getLsbD 3 = true) ∧
    (s.calOk = true → t.calOk = false → (∃ rest, s.schedule = .blockReset :: rest) ∨
      (s.seq = .idle ∧ t.seq = .resetWr ∧ (t.curCmd = some .init ∨ t.curCmd = some .read))) ∧
    (s.seq = .idle → t.seq = .trigWr → s.calOk = true)

/-- R25: DONE is set in the step that ends a command and cleared only by an acceptance, by a STATUS write with bit 1, or by
reset. -/
def Obligations.DoneFlagRule : Prop :=
  ∀ (s t : State), step s = .next t →
    (s.done = false → t.done = true → s.seq ≠ .idle ∧ t.seq = .idle) ∧
    (s.seq ≠ .idle → t.seq = .idle → (∀ rest, s.schedule ≠ .blockReset :: rest) → t.done = true) ∧
    (s.done = true → t.done = false → (∃ rest, s.schedule = .blockReset :: rest) ∨
      (s.seq = .idle ∧ t.seq ≠ .idle ∧ t.busy = true) ∨
      (∃ v rest, s.schedule = .hostWrite 0x04#6 4 v :: rest ∧ v.getLsbD 1 = true))

/-- R26: REJ is set only by a command write, and cleared only by a STATUS write with bit 2 or by reset; the acceptance of a
command does not clear it. -/
def Obligations.RejectFlagRule : Prop :=
  ∀ (s t : State), step s = .next t →
    (s.rej = false → t.rej = true → ∃ v rest, s.schedule = .hostWrite 0x00#6 4 v :: rest ∧
      v.extractLsb' 0 3 ≠ 0#3 ∧ t.seq = s.seq) ∧
    (s.rej = true → t.rej = false → (∃ rest, s.schedule = .blockReset :: rest) ∨
      (∃ v rest, s.schedule = .hostWrite 0x04#6 4 v :: rest ∧ v.getLsbD 2 = true))

/-- R27: VALID is set only in the step that ends DATA_RD with a sample, and cleared only by an acceptance or by reset. -/
def Obligations.ValidFlagRule : Prop :=
  ∀ (s t : State), step s = .next t →
    (s.valid = false → t.valid = true → s.seq = .dataRd ∧ t.seq = .idle ∧ t.done = true ∧
      ∃ d : Sample, ∃ rest, s.answer = some (.ok d.bytes) ∧ s.schedule = .sequencer :: rest ∧ t.sample = d ∧
        t.res.rawstat = d.d0) ∧
    (s.valid = true → t.valid = false → (∃ rest, s.schedule = .blockReset :: rest) ∨
      (s.seq = .idle ∧ t.busy = true ∧ t.res = Results.zero ∧ ∃ v rest, s.schedule = .hostWrite 0x00#6 4 v :: rest))

/-- R37: DEVSTAT takes the byte of each status read that succeeds, is cleared by an acceptance or by reset, and changes in
no other step. -/
def Obligations.DeviceStatusRule : Prop :=
  ∀ (s t : State), step s = .next t →
    (t.devstat ≠ s.devstat → (t.devstat = 0#8 ∧ ((∃ rest, s.schedule = .blockReset :: rest) ∨
        (s.seq = .idle ∧ t.busy = true))) ∨
      ((s.seq = .calRd ∨ s.seq = .busyRd) ∧ s.answer = some (.ok [t.devstat]) ∧
        ∃ rest, s.schedule = .sequencer :: rest)) ∧
    (∀ st rest, s.schedule = .sequencer :: rest → s.answer = some (.ok [st]) →
      (s.seq = .calRd ∨ s.seq = .busyRd) → t.devstat = st)

/-- R147: DATA_RD is entered only by the busy poll's step that sees bit 7 clear, with the sample read in flight at once. -/
def Obligations.SampleReadFollowsReadyStatus : Prop :=
  ∀ (s t : State), step s = .next t → s.seq ≠ .dataRd → t.seq = .dataRd →
    s.seq = .busyRd ∧ t.inFlight = some .rdSample ∧ t.wait = none ∧
    ∃ st rest, s.answer = some (.ok [st]) ∧ s.schedule = .sequencer :: rest ∧ st.getLsbD 7 = false ∧ t.devstat = st

/-- R44 and R31: INT_EN is written only by a host write to it, CUR_CMD only at an acceptance; both by reset. -/
def Obligations.EnablesAndCommandCodeRule : Prop :=
  ∀ (s t : State), step s = .next t → (∀ rest, s.schedule ≠ .blockReset :: rest) →
    (t.doneIe ≠ s.doneIe ∨ t.rejIe ≠ s.rejIe → ∃ v rest, s.schedule = .hostWrite 0x38#6 4 v :: rest) ∧
    (t.curCmd ≠ s.curCmd → s.seq = .idle ∧ t.busy = true ∧ (t.seq = .resetWr ∨ t.seq = .trigWr))

/-- R35: each poll counter keeps its value, is cleared by an acceptance or a reset, or goes up by one in the step that
starts a status read of its poll. -/
def Obligations.PollCountersRule : Prop :=
  ∀ (s t : State), Inv s → step s = .next t →
    (t.calPolls = s.calPolls ∨ t.calPolls = 0#4 ∨
      (t.calPolls.toNat = s.calPolls.toNat + 1 ∧ t.seq = .calRd ∧ s.seq ≠ .calRd)) ∧
    (t.busyPolls = s.busyPolls ∨ t.busyPolls = 0#4 ∨
      (t.busyPolls.toNat = s.busyPolls.toNat + 1 ∧ t.seq = .busyRd ∧ s.seq ≠ .busyRd))

/-- R73 and R90: a step adds to the bus history nothing, or the one transaction that was in flight, answered by the oracle or
abandoned by a block reset, and then none is in flight. -/
def Obligations.HistoryGrowsByTransactionInFlight : Prop :=
  ∀ (s t : State), step s = .next t →
    t.history = s.history ∨ ∃ f rest, s.inFlight = some f ∧ t.inFlight = none ∧
      ((∃ a, s.schedule = .busAnswer a :: rest ∧ t.answer = some a ∧
          t.history = { frame := f, result := a.result } :: s.history) ∨
        (s.schedule = .blockReset :: rest ∧ t.history = { frame := f, result := .abandoned } :: s.history))

/-- R190 and R192 for a communication failure, in every bus state: the error record names the cause and the state, the
command ends, and nothing else of the block changes. What the capture buffer holds after a failed sample read is open
(log 5), so the statement does not mention it. -/
def Obligations.CommunicationFailureIsPrecise : Prop :=
  ∀ (s : State) (c : Cause) (rest : List Event), Inv s →
    s.schedule = .sequencer :: rest → s.answer = some (.err c) →
    ∃ t, step s = .next t ∧ t.err = { kind := .comm, cause := some c, phase := s.seq } ∧
      t.busy = false ∧ t.done = true ∧ t.seq = .idle ∧ t.inFlight = none ∧ t.answer = none ∧
      t.wait = none ∧ t.expired = false ∧ t.valid = false ∧ t.res = Results.zero ∧
      t.calPolls = s.calPolls ∧ t.busyPolls = s.busyPolls ∧
      t.devstat = s.devstat ∧ t.calOk = s.calOk ∧ t.curCmd = s.curCmd ∧ t.rej = s.rej ∧
      t.doneIe = s.doneIe ∧ t.rejIe = s.rejIe ∧ t.schedule = rest ∧ t.history = s.history

/-- R131 and R132: an answer that is not on the closed list is refused: DATA_NACK to a read, or a number of device bytes
that is not the frame's. The refusal is the model's choice (log 3). -/
def Obligations.AnswersOffTheListRefused : Prop :=
  ∀ (s : State) (f : Frame) (rest : List Event), s.inFlight = some f →
    (f = .rdStatus ∨ f = .rdSample → s.schedule = .busAnswer (.err .dataNack) :: rest →
      step s = .refused (.undecodable .dataNackOnRead)) ∧
    (∀ data : List Byte, data.length ≠ deviceBytes f → s.schedule = .busAnswer (.ok data) :: rest →
      step s = .refused (.undecodable .wrongLength))

/-- R46 and R199: `irq` is high after the step that ends a command with DONE_IE set, and after a rejected command write with
REJ_IE set; it is low after a STATUS write that acknowledges both flags. -/
def Obligations.InterruptFollowsFlags : Prop :=
  ∀ (s t : State), step s = .next t →
    (s.seq ≠ .idle → t.seq = .idle → (∀ rest, s.schedule ≠ .blockReset :: rest) → s.doneIe = true → irq t = true) ∧
    (∀ v rest, s.schedule = .hostWrite 0x00#6 4 v :: rest → v.extractLsb' 0 3 ≠ 0#3 → s.seq ≠ .idle → s.rejIe = true →
      irq t = true) ∧
    (∀ v rest, s.schedule = .hostWrite 0x04#6 4 v :: rest → v.getLsbD 1 = true → v.getLsbD 2 = true → irq t = false)

/-- R115 and R66: a write of INT_EN and a step of the oracle, the timer or the sequencer come to the same state in either
order; and a command written while the last step of a running command is pending is rejected, where the same write made
after that step is accepted. -/
def Obligations.HostWriteBesideSequencerStep : Prop :=
  (∀ (s : State) (e : Event) (v : Word) (rest : List Event) (t : State),
    (e = .sequencer ∨ e = .timerExpires ∨ ∃ a, e = .busAnswer a) →
    runSteps 2 { s with schedule := .hostWrite 0x38#6 4 v :: e :: rest } = .next t →
    runSteps 2 { s with schedule := e :: .hostWrite 0x38#6 4 v :: rest } = .next t) ∧
  (∀ (s : State) (v : Word) (c : Cmd) (rest : List Event) (t : State),
    step { s with schedule := .sequencer :: rest } = .next t → s.seq ≠ .idle → t.seq = .idle →
    v.extractLsb' 0 3 = cmdCode (some c) → (c = .measure → t.calOk = true) →
    (∃ u, runSteps 2 { s with schedule := .hostWrite 0x00#6 4 v :: .sequencer :: rest } = .next u ∧
      u = { t with rej := true, reply := some .writeDone }) ∧
    (∃ u, runSteps 2 { s with schedule := .sequencer :: .hostWrite 0x00#6 4 v :: rest } = .next u ∧
      u.busy = true ∧ u.curCmd = some c ∧ u.rej = s.rej ∧ u.done = false))

/-! ### Reset: 70_reset_and_hazards.md -/

/-- R52: the state after reset, register by register. -/
def Obligations.ResetRegisterValues : Prop :=
  (∀ r : Reg, readReg r State.reset = if r = .param then 0x00000A38#32 else 0#32) ∧
  State.reset.seq = .idle ∧ State.reset.wait = none ∧ State.reset.inFlight = none ∧ irq State.reset = false

/-- R220: a block reset, in any state: every register at its reset value, IDLE, no wait, nothing in flight, `irq` low, the
lines released, the transaction in flight abandoned. What the capture buffer holds (`x`) is open, a free value with its
counter (log 5). That the schedule and the history go on, that `reply` and `cmdTxns` start again (log 11) and that the
datapath latches are zero again (log 9) are the model's choices. -/
def Obligations.BlockResetInAnyState : Prop :=
  ∀ (s : State) (rest : List Event), s.schedule = .blockReset :: rest →
    ∃ (x : Sample) (hist : List Txn) (t : State), step s = .next t ∧
      t = { State.reset with schedule := rest, history := hist, sample := x, draws := s.draws + 1 } ∧
      (s.inFlight = none → hist = s.history) ∧
      (∀ f, s.inFlight = some f → hist = { frame := f, result := .abandoned } :: s.history) ∧
      (∀ r : Reg, readReg r t = readReg r State.reset) ∧ irq t = false ∧ linesReleased t = true

/-- The invariant and the counts hold at reset. -/
def Obligations.ResetMeetsInvariant : Prop := Inv State.reset ∧ Counted State.reset

/-- R51: every step keeps the eight invariants, together with the consistency that makes them inductive. -/
def Obligations.StepKeepsInvariant : Prop := ∀ (s t : State), Inv s → step s = .next t → Inv t

/-- R149: every step keeps the transaction counts of a command. -/
def Obligations.StepKeepsTransactionCounts : Prop :=
  ∀ (s t : State), Inv s → Counted s → step s = .next t → Counted t

/-- R149, for a command that has ended, in every state that meets the invariant and the counts. -/
def Obligations.EndedCommandTransactions : Prop :=
  ∀ (s : State), Inv s → Counted s → s.seq = .idle →
    (s.curCmd = some .init → issued .wrSoftreset s = 1 ∧ issued .wrTrigger s = 0 ∧ issued .rdSample s = 0 ∧
      issued .rdStatus s = s.calPolls.toNat ∧ s.calPolls.toNat ≤ 10 ∧
      (s.err.phase = .resetWr → s.calPolls.toNat = 0) ∧ (s.err.phase ≠ .resetWr → 1 ≤ s.calPolls.toNat) ∧
      (s.err.kind = .calFailed → issued .rdStatus s = 10)) ∧
    (s.curCmd = some .measure → issued .wrSoftreset s = 0 ∧ issued .wrTrigger s = 1 ∧
      issued .rdStatus s = s.busyPolls.toNat ∧ s.busyPolls.toNat ≤ 10 ∧
      (s.err.phase = .trigWr → s.busyPolls.toNat = 0) ∧
      (s.err.kind = .stillBusy → issued .rdStatus s = 10 ∧ issued .rdSample s = 0)) ∧
    (hasMeasurePart s → issued .rdSample s = if s.valid = true ∨ s.err.phase = .dataRd then 1 else 0) ∧
    (s.valid = true → issued .wrTrigger s = 1 ∧ issued .rdSample s = 1 ∧ 1 ≤ s.busyPolls.toNat ∧
      issued .rdStatus s = s.calPolls.toNat + s.busyPolls.toNat) ∧
    (s.curCmd = some .read → issued .wrSoftreset s = 1 ∧ issued .wrTrigger s = (if s.calOk then 1 else 0) ∧
      issued .rdStatus s = s.calPolls.toNat + s.busyPolls.toNat ∧ (s.calOk = false → s.busyPolls.toNat = 0))

/-! ### Encoding and the step: 30_encoding.md -/

/-- Decode of encode, for every well-formed instruction with every operand. -/
def Obligations.DecodeOfEncode : Prop :=
  ∀ i : Instr, i.wellFormed = true → decode (formatOf i) (encode i) = .ok i

/-- Encode of decode: bytes that decode have one meaning, a well-formed one of their format. -/
def Obligations.EncodeOfDecode : Prop :=
  ∀ (f : Format) (bytes : List Byte) (i : Instr), decode f bytes = .ok i →
    encode i = bytes ∧ formatOf i = f ∧ i.wellFormed = true

/-- Words written out from the spec's encodings (R81, R83, R86 to R89, R172 to R175) decode to their instructions. The three
bus words begin with an outcome byte, which is the model's (log 6), and that the STATUS word 0x06, which sets both W1C bits,
is read as ACK_DONE is the model's choice (log 16). -/
def Obligations.SpecWordsDecode : Prop :=
  decode .hcmd [0x01#8, 0x00#8, 0x00#8, 0x00#8] = .ok (.init 0#29) ∧
  decode .hcmd [0xFA#8, 0xFF#8, 0xFF#8, 0xFF#8] = .ok (.measure 0x1FFFFFFF#29) ∧
  decode .hstw [0x06#8, 0x00#8, 0x00#8, 0x00#8] = .ok (.ackDone true false 0#29) ∧
  decode .hiew [0x02#8, 0x00#8, 0x00#8, 0x00#8] = .ok (.wrIntEn false true 0#30) ∧
  decode .i2cWrite [0x00#8, 0x70#8, 0xBA#8] = .ok (.wrSoftreset .ok) ∧
  decode .i2cWrite [0x02#8, 0x70#8, 0xAC#8, 0x33#8, 0x00#8] = .ok (.wrTrigger (.err .dataNack)) ∧
  decode .i2cRead [0x00#8, 0x71#8, 0x98#8] = .ok (.rdStatus (.ok 0x98#8)) ∧
  decode (.datapath .convHum) [0x08#8, 0x00#8, 0x00#8] = .ok (.convHum 0x80000#20)

/-- A step runs the decoded instruction. First clause, R110 to R112: a host word written to CTRL, STATUS or INT_EN; the step
moves past the event and completes the access on the host bus. Second clause, R130: the sequencer's step in a bus state
whose transaction has been answered, with as many bytes as its frame has; that a row of the table runs in this step, and
which bytes stand for the answer, are the model's choices (logs 22 and 6). Third clause: a datapath operation as an event of
its own, which is the model's choice (log 9). -/
def Obligations.StepRunsDecodedInstruction : Prop :=
  (∀ (s : State) (off : BitVec 6) (f : Format) (v : Word) (rest : List Event) (i : Instr),
    (off = 0x00#6 ∧ f = .hcmd) ∨ (off = 0x04#6 ∧ f = .hstw) ∨ (off = 0x38#6 ∧ f = .hiew) →
    s.schedule = .hostWrite off 4 v :: rest → decode f (leBytes v) = .ok i →
    step s = exec i { s with schedule := rest, reply := some .writeDone }) ∧
  (∀ (s : State) (f : Frame) (a : Answer) (rest : List Event) (i : Instr),
    s.schedule = .sequencer :: rest → s.seq.frame = some f → s.answer = some a →
    (∀ data, a = .ok data → data.length = deviceBytes f) →
    decode (frameFormat f) (answerBytes f a) = .ok i → step s = exec i { s with schedule := rest }) ∧
  (∀ (s : State) (op : DatapathOp) (bytes : List Byte) (rest : List Event) (i : Instr),
    s.schedule = .datapath op bytes :: rest → decode (.datapath op) bytes = .ok i →
    step s = exec i { s with schedule := rest })

/-- R86 to R89: the bytes of each frame on the wire when it is answered `Ok`, between START and STOP, with the master's
NACK after the last byte of a read (R85), and the frame's length in SCL cycles (R239). -/
def Obligations.FramesOnTheWire : Prop :=
  wireOk .wrSoftreset [] = [.start, .byte 0x70#8 true, .byte 0xBA#8 true, .stop] ∧
  wireOk .wrTrigger [] =
    [.start, .byte 0x70#8 true, .byte 0xAC#8 true, .byte 0x33#8 true, .byte 0x00#8 true, .stop] ∧
  (∀ st, wireOk .rdStatus [st] = [.start, .byte 0x71#8 true, .byte st false, .stop]) ∧
  (∀ d0 d1 d2 d3 d4 d5, wireOk .rdSample [d0, d1, d2, d3, d4, d5] =
    [.start, .byte 0x71#8 true, .byte d0 true, .byte d1 true, .byte d2 true, .byte d3 true, .byte d4 true,
      .byte d5 false, .stop]) ∧
  sclCycles .wrSoftreset = 18 ∧ sclCycles .wrTrigger = 36 ∧ sclCycles .rdStatus = 18 ∧ sclCycles .rdSample = 63
end

