-- ==== Sys2Proof/Laws/State.lean ====
section
/-! SUPPORT. The fields of the state after each shared operation, one lemma a field, true by unfolding once. -/

namespace Sys2Proof.Machine

variable (s : State)

/-! ### Entering a state (R130). -/

@[simp] theorem enter_busy (q : SeqState) : (enter q s).busy = s.busy := rfl
@[simp] theorem enter_done (q : SeqState) : (enter q s).done = s.done := rfl
@[simp] theorem enter_rej (q : SeqState) : (enter q s).rej = s.rej := rfl
@[simp] theorem enter_valid (q : SeqState) : (enter q s).valid = s.valid := rfl
@[simp] theorem enter_calOk (q : SeqState) : (enter q s).calOk = s.calOk := rfl
@[simp] theorem enter_seq (q : SeqState) : (enter q s).seq = q := rfl
@[simp] theorem enter_curCmd (q : SeqState) : (enter q s).curCmd = s.curCmd := rfl
@[simp] theorem enter_err (q : SeqState) : (enter q s).err = s.err := rfl
@[simp] theorem enter_calPolls (q : SeqState) : (enter q s).calPolls = s.calPolls := rfl
@[simp] theorem enter_busyPolls (q : SeqState) : (enter q s).busyPolls = s.busyPolls := rfl
@[simp] theorem enter_devstat (q : SeqState) : (enter q s).devstat = s.devstat := rfl
@[simp] theorem enter_res (q : SeqState) : (enter q s).res = s.res := rfl
@[simp] theorem enter_doneIe (q : SeqState) : (enter q s).doneIe = s.doneIe := rfl
@[simp] theorem enter_rejIe (q : SeqState) : (enter q s).rejIe = s.rejIe := rfl
@[simp] theorem enter_sample (q : SeqState) : (enter q s).sample = s.sample := rfl
@[simp] theorem enter_wait (q : SeqState) : (enter q s).wait = q.delay := rfl
@[simp] theorem enter_expired (q : SeqState) : (enter q s).expired = false := rfl
@[simp] theorem enter_inFlight (q : SeqState) : (enter q s).inFlight = q.frame := rfl
@[simp] theorem enter_answer (q : SeqState) : (enter q s).answer = none := rfl
@[simp] theorem enter_dp (q : SeqState) : (enter q s).dp = s.dp := rfl
@[simp] theorem enter_schedule (q : SeqState) : (enter q s).schedule = s.schedule := rfl
@[simp] theorem enter_history (q : SeqState) : (enter q s).history = s.history := rfl
@[simp] theorem enter_cmdTxns (q : SeqState) : (enter q s).cmdTxns = s.cmdTxns := rfl
@[simp] theorem enter_reply (q : SeqState) : (enter q s).reply = s.reply := rfl
@[simp] theorem enter_draws (q : SeqState) : (enter q s).draws = s.draws := rfl

/-! ### A transaction answered (R49). -/

@[simp] theorem receive_busy (f : Frame) (a : Answer) : (receive f a s).busy = s.busy := rfl
@[simp] theorem receive_done (f : Frame) (a : Answer) : (receive f a s).done = s.done := rfl
@[simp] theorem receive_rej (f : Frame) (a : Answer) : (receive f a s).rej = s.rej := rfl
@[simp] theorem receive_valid (f : Frame) (a : Answer) : (receive f a s).valid = s.valid := rfl
@[simp] theorem receive_calOk (f : Frame) (a : Answer) : (receive f a s).calOk = s.calOk := rfl
@[simp] theorem receive_seq (f : Frame) (a : Answer) : (receive f a s).seq = s.seq := rfl
@[simp] theorem receive_curCmd (f : Frame) (a : Answer) : (receive f a s).curCmd = s.curCmd := rfl
@[simp] theorem receive_err (f : Frame) (a : Answer) : (receive f a s).err = s.err := rfl
@[simp] theorem receive_calPolls (f : Frame) (a : Answer) : (receive f a s).calPolls = s.calPolls := rfl
@[simp] theorem receive_busyPolls (f : Frame) (a : Answer) : (receive f a s).busyPolls = s.busyPolls := rfl
@[simp] theorem receive_devstat (f : Frame) (a : Answer) : (receive f a s).devstat = s.devstat := rfl
@[simp] theorem receive_res (f : Frame) (a : Answer) : (receive f a s).res = s.res := rfl
@[simp] theorem receive_doneIe (f : Frame) (a : Answer) : (receive f a s).doneIe = s.doneIe := rfl
@[simp] theorem receive_rejIe (f : Frame) (a : Answer) : (receive f a s).rejIe = s.rejIe := rfl
@[simp] theorem receive_sample (f : Frame) (a : Answer) : (receive f a s).sample = s.sample := rfl
@[simp] theorem receive_wait (f : Frame) (a : Answer) : (receive f a s).wait = s.wait := rfl
@[simp] theorem receive_expired (f : Frame) (a : Answer) : (receive f a s).expired = s.expired := rfl
@[simp] theorem receive_inFlight (f : Frame) (a : Answer) : (receive f a s).inFlight = none := rfl
@[simp] theorem receive_answer (f : Frame) (a : Answer) : (receive f a s).answer = some a := rfl
@[simp] theorem receive_dp (f : Frame) (a : Answer) : (receive f a s).dp = s.dp := rfl
@[simp] theorem receive_schedule (f : Frame) (a : Answer) : (receive f a s).schedule = s.schedule := rfl
@[simp] theorem receive_history (f : Frame) (a : Answer) :
    (receive f a s).history = { frame := f, result := a.result } :: s.history := rfl
@[simp] theorem receive_cmdTxns (f : Frame) (a : Answer) : (receive f a s).cmdTxns = s.cmdTxns + 1 := rfl
@[simp] theorem receive_reply (f : Frame) (a : Answer) : (receive f a s).reply = s.reply := rfl
@[simp] theorem receive_draws (f : Frame) (a : Answer) : (receive f a s).draws = s.draws := rfl

/-! ### A wait expired (R48). -/

@[simp] theorem expire_busy : (expire s).busy = s.busy := rfl
@[simp] theorem expire_done : (expire s).done = s.done := rfl
@[simp] theorem expire_rej : (expire s).rej = s.rej := rfl
@[simp] theorem expire_valid : (expire s).valid = s.valid := rfl
@[simp] theorem expire_calOk : (expire s).calOk = s.calOk := rfl
@[simp] theorem expire_seq : (expire s).seq = s.seq := rfl
@[simp] theorem expire_curCmd : (expire s).curCmd = s.curCmd := rfl
@[simp] theorem expire_err : (expire s).err = s.err := rfl
@[simp] theorem expire_calPolls : (expire s).calPolls = s.calPolls := rfl
@[simp] theorem expire_busyPolls : (expire s).busyPolls = s.busyPolls := rfl
@[simp] theorem expire_devstat : (expire s).devstat = s.devstat := rfl
@[simp] theorem expire_res : (expire s).res = s.res := rfl
@[simp] theorem expire_doneIe : (expire s).doneIe = s.doneIe := rfl
@[simp] theorem expire_rejIe : (expire s).rejIe = s.rejIe := rfl
@[simp] theorem expire_sample : (expire s).sample = s.sample := rfl
@[simp] theorem expire_wait : (expire s).wait = none := rfl
@[simp] theorem expire_expired : (expire s).expired = true := rfl
@[simp] theorem expire_inFlight : (expire s).inFlight = s.inFlight := rfl
@[simp] theorem expire_answer : (expire s).answer = s.answer := rfl
@[simp] theorem expire_dp : (expire s).dp = s.dp := rfl
@[simp] theorem expire_schedule : (expire s).schedule = s.schedule := rfl
@[simp] theorem expire_history : (expire s).history = s.history := rfl
@[simp] theorem expire_cmdTxns : (expire s).cmdTxns = s.cmdTxns := rfl
@[simp] theorem expire_reply : (expire s).reply = s.reply := rfl
@[simp] theorem expire_draws : (expire s).draws = s.draws := rfl

/-! ### Acceptance (R100). -/

@[simp] theorem accept_busy (c : Cmd) : (accept c s).busy = true := rfl
@[simp] theorem accept_done (c : Cmd) : (accept c s).done = false := rfl
@[simp] theorem accept_rej (c : Cmd) : (accept c s).rej = s.rej := rfl
@[simp] theorem accept_valid (c : Cmd) : (accept c s).valid = false := rfl
@[simp] theorem accept_calOk (c : Cmd) : (accept c s).calOk = c.calOkAfterAccept s.calOk := rfl
@[simp] theorem accept_seq (c : Cmd) : (accept c s).seq = c.start := rfl
@[simp] theorem accept_curCmd (c : Cmd) : (accept c s).curCmd = some c := rfl
@[simp] theorem accept_err (c : Cmd) : (accept c s).err = ErrorReg.zero := rfl
@[simp] theorem accept_calPolls (c : Cmd) : (accept c s).calPolls = 0#4 := rfl
@[simp] theorem accept_busyPolls (c : Cmd) : (accept c s).busyPolls = 0#4 := rfl
@[simp] theorem accept_devstat (c : Cmd) : (accept c s).devstat = 0#8 := rfl
@[simp] theorem accept_res (c : Cmd) : (accept c s).res = Results.zero := rfl
@[simp] theorem accept_doneIe (c : Cmd) : (accept c s).doneIe = s.doneIe := rfl
@[simp] theorem accept_rejIe (c : Cmd) : (accept c s).rejIe = s.rejIe := rfl
@[simp] theorem accept_sample (c : Cmd) : (accept c s).sample = s.sample := rfl
@[simp] theorem accept_wait (c : Cmd) : (accept c s).wait = c.start.delay := rfl
@[simp] theorem accept_expired (c : Cmd) : (accept c s).expired = false := rfl
@[simp] theorem accept_inFlight (c : Cmd) : (accept c s).inFlight = c.start.frame := rfl
@[simp] theorem accept_answer (c : Cmd) : (accept c s).answer = none := rfl
@[simp] theorem accept_dp (c : Cmd) : (accept c s).dp = s.dp := rfl
@[simp] theorem accept_schedule (c : Cmd) : (accept c s).schedule = s.schedule := rfl
@[simp] theorem accept_history (c : Cmd) : (accept c s).history = s.history := rfl
@[simp] theorem accept_cmdTxns (c : Cmd) : (accept c s).cmdTxns = 0 := rfl
@[simp] theorem accept_reply (c : Cmd) : (accept c s).reply = s.reply := rfl
@[simp] theorem accept_draws (c : Cmd) : (accept c s).draws = s.draws := rfl

/-! ### Rejection (R101). -/

@[simp] theorem reject_busy : (reject s).busy = s.busy := rfl
@[simp] theorem reject_done : (reject s).done = s.done := rfl
@[simp] theorem reject_rej : (reject s).rej = true := rfl
@[simp] theorem reject_valid : (reject s).valid = s.valid := rfl
@[simp] theorem reject_calOk : (reject s).calOk = s.calOk := rfl
@[simp] theorem reject_seq : (reject s).seq = s.seq := rfl
@[simp] theorem reject_curCmd : (reject s).curCmd = s.curCmd := rfl
@[simp] theorem reject_err : (reject s).err = s.err := rfl
@[simp] theorem reject_calPolls : (reject s).calPolls = s.calPolls := rfl
@[simp] theorem reject_busyPolls : (reject s).busyPolls = s.busyPolls := rfl
@[simp] theorem reject_devstat : (reject s).devstat = s.devstat := rfl
@[simp] theorem reject_res : (reject s).res = s.res := rfl
@[simp] theorem reject_doneIe : (reject s).doneIe = s.doneIe := rfl
@[simp] theorem reject_rejIe : (reject s).rejIe = s.rejIe := rfl
@[simp] theorem reject_sample : (reject s).sample = s.sample := rfl
@[simp] theorem reject_wait : (reject s).wait = s.wait := rfl
@[simp] theorem reject_expired : (reject s).expired = s.expired := rfl
@[simp] theorem reject_inFlight : (reject s).inFlight = s.inFlight := rfl
@[simp] theorem reject_answer : (reject s).answer = s.answer := rfl
@[simp] theorem reject_dp : (reject s).dp = s.dp := rfl
@[simp] theorem reject_schedule : (reject s).schedule = s.schedule := rfl
@[simp] theorem reject_history : (reject s).history = s.history := rfl
@[simp] theorem reject_cmdTxns : (reject s).cmdTxns = s.cmdTxns := rfl
@[simp] theorem reject_reply : (reject s).reply = s.reply := rfl
@[simp] theorem reject_draws : (reject s).draws = s.draws := rfl

/-! ### The STATUS write (R111). -/

@[simp] theorem clearFlags_busy (a b : Bool) : (clearFlags a b s).busy = s.busy := rfl
@[simp] theorem clearFlags_done (a b : Bool) : (clearFlags a b s).done = (s.done && !a) := rfl
@[simp] theorem clearFlags_rej (a b : Bool) : (clearFlags a b s).rej = (s.rej && !b) := rfl
@[simp] theorem clearFlags_valid (a b : Bool) : (clearFlags a b s).valid = s.valid := rfl
@[simp] theorem clearFlags_calOk (a b : Bool) : (clearFlags a b s).calOk = s.calOk := rfl
@[simp] theorem clearFlags_seq (a b : Bool) : (clearFlags a b s).seq = s.seq := rfl
@[simp] theorem clearFlags_curCmd (a b : Bool) : (clearFlags a b s).curCmd = s.curCmd := rfl
@[simp] theorem clearFlags_err (a b : Bool) : (clearFlags a b s).err = s.err := rfl
@[simp] theorem clearFlags_calPolls (a b : Bool) : (clearFlags a b s).calPolls = s.calPolls := rfl
@[simp] theorem clearFlags_busyPolls (a b : Bool) : (clearFlags a b s).busyPolls = s.busyPolls := rfl
@[simp] theorem clearFlags_devstat (a b : Bool) : (clearFlags a b s).devstat = s.devstat := rfl
@[simp] theorem clearFlags_res (a b : Bool) : (clearFlags a b s).res = s.res := rfl
@[simp] theorem clearFlags_doneIe (a b : Bool) : (clearFlags a b s).doneIe = s.doneIe := rfl
@[simp] theorem clearFlags_rejIe (a b : Bool) : (clearFlags a b s).rejIe = s.rejIe := rfl
@[simp] theorem clearFlags_sample (a b : Bool) : (clearFlags a b s).sample = s.sample := rfl
@[simp] theorem clearFlags_wait (a b : Bool) : (clearFlags a b s).wait = s.wait := rfl
@[simp] theorem clearFlags_expired (a b : Bool) : (clearFlags a b s).expired = s.expired := rfl
@[simp] theorem clearFlags_inFlight (a b : Bool) : (clearFlags a b s).inFlight = s.inFlight := rfl
@[simp] theorem clearFlags_answer (a b : Bool) : (clearFlags a b s).answer = s.answer := rfl
@[simp] theorem clearFlags_dp (a b : Bool) : (clearFlags a b s).dp = s.dp := rfl
@[simp] theorem clearFlags_schedule (a b : Bool) : (clearFlags a b s).schedule = s.schedule := rfl
@[simp] theorem clearFlags_history (a b : Bool) : (clearFlags a b s).history = s.history := rfl
@[simp] theorem clearFlags_cmdTxns (a b : Bool) : (clearFlags a b s).cmdTxns = s.cmdTxns := rfl
@[simp] theorem clearFlags_reply (a b : Bool) : (clearFlags a b s).reply = s.reply := rfl
@[simp] theorem clearFlags_draws (a b : Bool) : (clearFlags a b s).draws = s.draws := rfl

/-! ### The end of a command in success (R150). -/

@[simp] theorem finish_busy : (finish s).busy = false := rfl
@[simp] theorem finish_done : (finish s).done = true := rfl
@[simp] theorem finish_rej : (finish s).rej = s.rej := rfl
@[simp] theorem finish_valid : (finish s).valid = s.valid := rfl
@[simp] theorem finish_calOk : (finish s).calOk = s.calOk := rfl
@[simp] theorem finish_seq : (finish s).seq = .idle := rfl
@[simp] theorem finish_curCmd : (finish s).curCmd = s.curCmd := rfl
@[simp] theorem finish_err : (finish s).err = s.err := rfl
@[simp] theorem finish_calPolls : (finish s).calPolls = s.calPolls := rfl
@[simp] theorem finish_busyPolls : (finish s).busyPolls = s.busyPolls := rfl
@[simp] theorem finish_devstat : (finish s).devstat = s.devstat := rfl
@[simp] theorem finish_res : (finish s).res = s.res := rfl
@[simp] theorem finish_doneIe : (finish s).doneIe = s.doneIe := rfl
@[simp] theorem finish_rejIe : (finish s).rejIe = s.rejIe := rfl
@[simp] theorem finish_sample : (finish s).sample = s.sample := rfl
@[simp] theorem finish_wait : (finish s).wait = none := rfl
@[simp] theorem finish_expired : (finish s).expired = false := rfl
@[simp] theorem finish_inFlight : (finish s).inFlight = none := rfl
@[simp] theorem finish_answer : (finish s).answer = none := rfl
@[simp] theorem finish_dp : (finish s).dp = s.dp := rfl
@[simp] theorem finish_schedule : (finish s).schedule = s.schedule := rfl
@[simp] theorem finish_history : (finish s).history = s.history := rfl
@[simp] theorem finish_cmdTxns : (finish s).cmdTxns = s.cmdTxns := rfl
@[simp] theorem finish_reply : (finish s).reply = s.reply := rfl
@[simp] theorem finish_draws : (finish s).draws = s.draws := rfl

/-! ### The end of a command in error (R192). -/

@[simp] theorem fail_busy (k : ErrKind) (c : Option Cause) (p : SeqState) : (fail k c p s).busy = false := rfl
@[simp] theorem fail_done (k : ErrKind) (c : Option Cause) (p : SeqState) : (fail k c p s).done = true := rfl
@[simp] theorem fail_rej (k : ErrKind) (c : Option Cause) (p : SeqState) : (fail k c p s).rej = s.rej := rfl
@[simp] theorem fail_valid (k : ErrKind) (c : Option Cause) (p : SeqState) : (fail k c p s).valid = s.valid := rfl
@[simp] theorem fail_calOk (k : ErrKind) (c : Option Cause) (p : SeqState) : (fail k c p s).calOk = s.calOk := rfl
@[simp] theorem fail_seq (k : ErrKind) (c : Option Cause) (p : SeqState) : (fail k c p s).seq = .idle := rfl
@[simp] theorem fail_curCmd (k : ErrKind) (c : Option Cause) (p : SeqState) : (fail k c p s).curCmd = s.curCmd := rfl
@[simp] theorem fail_err (k : ErrKind) (c : Option Cause) (p : SeqState) :
    (fail k c p s).err = { kind := k, cause := c, phase := p } := rfl
@[simp] theorem fail_calPolls (k : ErrKind) (c : Option Cause) (p : SeqState) :
    (fail k c p s).calPolls = s.calPolls := rfl
@[simp] theorem fail_busyPolls (k : ErrKind) (c : Option Cause) (p : SeqState) :
    (fail k c p s).busyPolls = s.busyPolls := rfl
@[simp] theorem fail_devstat (k : ErrKind) (c : Option Cause) (p : SeqState) :
    (fail k c p s).devstat = s.devstat := rfl
@[simp] theorem fail_res (k : ErrKind) (c : Option Cause) (p : SeqState) : (fail k c p s).res = s.res := rfl
@[simp] theorem fail_doneIe (k : ErrKind) (c : Option Cause) (p : SeqState) : (fail k c p s).doneIe = s.doneIe := rfl
@[simp] theorem fail_rejIe (k : ErrKind) (c : Option Cause) (p : SeqState) : (fail k c p s).rejIe = s.rejIe := rfl
@[simp] theorem fail_sample (k : ErrKind) (c : Option Cause) (p : SeqState) : (fail k c p s).sample = s.sample := rfl
@[simp] theorem fail_wait (k : ErrKind) (c : Option Cause) (p : SeqState) : (fail k c p s).wait = none := rfl
@[simp] theorem fail_expired (k : ErrKind) (c : Option Cause) (p : SeqState) : (fail k c p s).expired = false := rfl
@[simp] theorem fail_inFlight (k : ErrKind) (c : Option Cause) (p : SeqState) : (fail k c p s).inFlight = none := rfl
@[simp] theorem fail_answer (k : ErrKind) (c : Option Cause) (p : SeqState) : (fail k c p s).answer = none := rfl
@[simp] theorem fail_dp (k : ErrKind) (c : Option Cause) (p : SeqState) : (fail k c p s).dp = s.dp := rfl
@[simp] theorem fail_schedule (k : ErrKind) (c : Option Cause) (p : SeqState) :
    (fail k c p s).schedule = s.schedule := rfl
@[simp] theorem fail_history (k : ErrKind) (c : Option Cause) (p : SeqState) :
    (fail k c p s).history = s.history := rfl
@[simp] theorem fail_cmdTxns (k : ErrKind) (c : Option Cause) (p : SeqState) :
    (fail k c p s).cmdTxns = s.cmdTxns := rfl
@[simp] theorem fail_reply (k : ErrKind) (c : Option Cause) (p : SeqState) : (fail k c p s).reply = s.reply := rfl
@[simp] theorem fail_draws (k : ErrKind) (c : Option Cause) (p : SeqState) : (fail k c p s).draws = s.draws := rfl

/-! ### The start of a calibration read (R137). -/

@[simp] theorem startCalRead_busy : (startCalRead s).busy = s.busy := rfl
@[simp] theorem startCalRead_done : (startCalRead s).done = s.done := rfl
@[simp] theorem startCalRead_rej : (startCalRead s).rej = s.rej := rfl
@[simp] theorem startCalRead_valid : (startCalRead s).valid = s.valid := rfl
@[simp] theorem startCalRead_calOk : (startCalRead s).calOk = s.calOk := rfl
@[simp] theorem startCalRead_seq : (startCalRead s).seq = .calRd := rfl
@[simp] theorem startCalRead_curCmd : (startCalRead s).curCmd = s.curCmd := rfl
@[simp] theorem startCalRead_err : (startCalRead s).err = s.err := rfl
@[simp] theorem startCalRead_calPolls : (startCalRead s).calPolls = s.calPolls + 1#4 := rfl
@[simp] theorem startCalRead_busyPolls : (startCalRead s).busyPolls = s.busyPolls := rfl
@[simp] theorem startCalRead_devstat : (startCalRead s).devstat = s.devstat := rfl
@[simp] theorem startCalRead_res : (startCalRead s).res = s.res := rfl
@[simp] theorem startCalRead_doneIe : (startCalRead s).doneIe = s.doneIe := rfl
@[simp] theorem startCalRead_rejIe : (startCalRead s).rejIe = s.rejIe := rfl
@[simp] theorem startCalRead_sample : (startCalRead s).sample = s.sample := rfl
@[simp] theorem startCalRead_wait : (startCalRead s).wait = none := rfl
@[simp] theorem startCalRead_expired : (startCalRead s).expired = false := rfl
@[simp] theorem startCalRead_inFlight : (startCalRead s).inFlight = some .rdStatus := rfl
@[simp] theorem startCalRead_answer : (startCalRead s).answer = none := rfl
@[simp] theorem startCalRead_dp : (startCalRead s).dp = s.dp := rfl
@[simp] theorem startCalRead_schedule : (startCalRead s).schedule = s.schedule := rfl
@[simp] theorem startCalRead_history : (startCalRead s).history = s.history := rfl
@[simp] theorem startCalRead_cmdTxns : (startCalRead s).cmdTxns = s.cmdTxns := rfl
@[simp] theorem startCalRead_reply : (startCalRead s).reply = s.reply := rfl
@[simp] theorem startCalRead_draws : (startCalRead s).draws = s.draws := rfl

/-! ### The start of a busy read (R143). -/

@[simp] theorem startBusyRead_busy : (startBusyRead s).busy = s.busy := rfl
@[simp] theorem startBusyRead_done : (startBusyRead s).done = s.done := rfl
@[simp] theorem startBusyRead_rej : (startBusyRead s).rej = s.rej := rfl
@[simp] theorem startBusyRead_valid : (startBusyRead s).valid = s.valid := rfl
@[simp] theorem startBusyRead_calOk : (startBusyRead s).calOk = s.calOk := rfl
@[simp] theorem startBusyRead_seq : (startBusyRead s).seq = .busyRd := rfl
@[simp] theorem startBusyRead_curCmd : (startBusyRead s).curCmd = s.curCmd := rfl
@[simp] theorem startBusyRead_err : (startBusyRead s).err = s.err := rfl
@[simp] theorem startBusyRead_calPolls : (startBusyRead s).calPolls = s.calPolls := rfl
@[simp] theorem startBusyRead_busyPolls : (startBusyRead s).busyPolls = s.busyPolls + 1#4 := rfl
@[simp] theorem startBusyRead_devstat : (startBusyRead s).devstat = s.devstat := rfl
@[simp] theorem startBusyRead_res : (startBusyRead s).res = s.res := rfl
@[simp] theorem startBusyRead_doneIe : (startBusyRead s).doneIe = s.doneIe := rfl
@[simp] theorem startBusyRead_rejIe : (startBusyRead s).rejIe = s.rejIe := rfl
@[simp] theorem startBusyRead_sample : (startBusyRead s).sample = s.sample := rfl
@[simp] theorem startBusyRead_wait : (startBusyRead s).wait = none := rfl
@[simp] theorem startBusyRead_expired : (startBusyRead s).expired = false := rfl
@[simp] theorem startBusyRead_inFlight : (startBusyRead s).inFlight = some .rdStatus := rfl
@[simp] theorem startBusyRead_answer : (startBusyRead s).answer = none := rfl
@[simp] theorem startBusyRead_dp : (startBusyRead s).dp = s.dp := rfl
@[simp] theorem startBusyRead_schedule : (startBusyRead s).schedule = s.schedule := rfl
@[simp] theorem startBusyRead_history : (startBusyRead s).history = s.history := rfl
@[simp] theorem startBusyRead_cmdTxns : (startBusyRead s).cmdTxns = s.cmdTxns := rfl
@[simp] theorem startBusyRead_reply : (startBusyRead s).reply = s.reply := rfl
@[simp] theorem startBusyRead_draws : (startBusyRead s).draws = s.draws := rfl

/-! ### The free capture buffer (U5). -/

@[simp] theorem forgetSample_busy : (forgetSample s).busy = s.busy := rfl
@[simp] theorem forgetSample_done : (forgetSample s).done = s.done := rfl
@[simp] theorem forgetSample_rej : (forgetSample s).rej = s.rej := rfl
@[simp] theorem forgetSample_valid : (forgetSample s).valid = s.valid := rfl
@[simp] theorem forgetSample_calOk : (forgetSample s).calOk = s.calOk := rfl
@[simp] theorem forgetSample_seq : (forgetSample s).seq = s.seq := rfl
@[simp] theorem forgetSample_curCmd : (forgetSample s).curCmd = s.curCmd := rfl
@[simp] theorem forgetSample_err : (forgetSample s).err = s.err := rfl
@[simp] theorem forgetSample_calPolls : (forgetSample s).calPolls = s.calPolls := rfl
@[simp] theorem forgetSample_busyPolls : (forgetSample s).busyPolls = s.busyPolls := rfl
@[simp] theorem forgetSample_devstat : (forgetSample s).devstat = s.devstat := rfl
@[simp] theorem forgetSample_res : (forgetSample s).res = s.res := rfl
@[simp] theorem forgetSample_doneIe : (forgetSample s).doneIe = s.doneIe := rfl
@[simp] theorem forgetSample_rejIe : (forgetSample s).rejIe = s.rejIe := rfl
@[simp] theorem forgetSample_sample : (forgetSample s).sample = Config.freeSample s.draws := rfl
@[simp] theorem forgetSample_wait : (forgetSample s).wait = s.wait := rfl
@[simp] theorem forgetSample_expired : (forgetSample s).expired = s.expired := rfl
@[simp] theorem forgetSample_inFlight : (forgetSample s).inFlight = s.inFlight := rfl
@[simp] theorem forgetSample_answer : (forgetSample s).answer = s.answer := rfl
@[simp] theorem forgetSample_dp : (forgetSample s).dp = s.dp := rfl
@[simp] theorem forgetSample_schedule : (forgetSample s).schedule = s.schedule := rfl
@[simp] theorem forgetSample_history : (forgetSample s).history = s.history := rfl
@[simp] theorem forgetSample_cmdTxns : (forgetSample s).cmdTxns = s.cmdTxns := rfl
@[simp] theorem forgetSample_reply : (forgetSample s).reply = s.reply := rfl
@[simp] theorem forgetSample_draws : (forgetSample s).draws = s.draws + 1 := rfl

/-! ### The commit (R148). -/

@[simp] theorem commit_busy (d : Sample) : (commit d s).busy = s.busy := rfl
@[simp] theorem commit_done (d : Sample) : (commit d s).done = s.done := rfl
@[simp] theorem commit_rej (d : Sample) : (commit d s).rej = s.rej := rfl
@[simp] theorem commit_valid (d : Sample) : (commit d s).valid = true := rfl
@[simp] theorem commit_calOk (d : Sample) : (commit d s).calOk = s.calOk := rfl
@[simp] theorem commit_seq (d : Sample) : (commit d s).seq = s.seq := rfl
@[simp] theorem commit_curCmd (d : Sample) : (commit d s).curCmd = s.curCmd := rfl
@[simp] theorem commit_err (d : Sample) : (commit d s).err = s.err := rfl
@[simp] theorem commit_calPolls (d : Sample) : (commit d s).calPolls = s.calPolls := rfl
@[simp] theorem commit_busyPolls (d : Sample) : (commit d s).busyPolls = s.busyPolls := rfl
@[simp] theorem commit_devstat (d : Sample) : (commit d s).devstat = s.devstat := rfl
@[simp] theorem commit_res (d : Sample) :
    (commit d s).res = resultsOf d.d0 (decodeSample d) := rfl
@[simp] theorem commit_doneIe (d : Sample) : (commit d s).doneIe = s.doneIe := rfl
@[simp] theorem commit_rejIe (d : Sample) : (commit d s).rejIe = s.rejIe := rfl
@[simp] theorem commit_sample (d : Sample) : (commit d s).sample = d := rfl
@[simp] theorem commit_wait (d : Sample) : (commit d s).wait = s.wait := rfl
@[simp] theorem commit_expired (d : Sample) : (commit d s).expired = s.expired := rfl
@[simp] theorem commit_inFlight (d : Sample) : (commit d s).inFlight = s.inFlight := rfl
@[simp] theorem commit_answer (d : Sample) : (commit d s).answer = s.answer := rfl
@[simp] theorem commit_dp (d : Sample) : (commit d s).dp = decodeSample d := rfl
@[simp] theorem commit_schedule (d : Sample) : (commit d s).schedule = s.schedule := rfl
@[simp] theorem commit_history (d : Sample) : (commit d s).history = s.history := rfl
@[simp] theorem commit_cmdTxns (d : Sample) : (commit d s).cmdTxns = s.cmdTxns := rfl
@[simp] theorem commit_reply (d : Sample) : (commit d s).reply = s.reply := rfl
@[simp] theorem commit_draws (d : Sample) : (commit d s).draws = s.draws := rfl

end Sys2Proof.Machine
end

