-- ==== Sys2Proof/Laws/Ops.lean ====
section
/-! SUPPORT. One lemma per shared operation or meaning that says once what it can do, for the proofs to cite. -/

namespace Sys2Proof.Machine

/-! ### Datapath operations change their latch only -/

theorem opConvHum64_eq (hc : BitVec 20) (dp : Datapath) :
    opConvHum64 hc dp = { dp with f64 := convHum64 hc, hum64 := convHum64 hc } := rfl

theorem opConvTemp64_eq (tc : BitVec 20) (dp : Datapath) :
    opConvTemp64 tc dp = { dp with f64 := convTemp64 tc, temp64 := convTemp64 tc } := rfl

/-- The commit's latches are those the datapath instructions leave one after another, each on the results before it. -/
theorem decodeSample_eq_operations (d : Sample) (dp0 dp1 dp2 dp3 dp4 dp5 dp6 : Datapath)
    (h1 : dp1 = opExtract d.d1 d.d2 d.d3 d.d4 d.d5 dp0) (h2 : dp2 = opExtractHum dp1.f40 dp1)
    (h3 : dp3 = opExtractTemp dp2.f40 dp2) (h4 : dp4 = opConvHum dp3.hc dp3) (h5 : dp5 = opConvTemp dp4.tc dp4)
    (h6 : dp6 = opConvHum64 dp5.hc dp5) : decodeSample d = opConvTemp64 dp6.tc dp6 := by
  subst h6 h5 h4 h3 h2 h1
  simp [decodeSample, opExtract, opExtractHum, opExtractTemp, opConvHum, opConvTemp, opConvHum64_eq, opConvTemp64_eq]

/-! ### The sequencer's steps -/

/-- `cal_success()`: CAL_OK is set, then INIT ends and READ goes on to the trigger. -/
theorem calSuccess_cases (s : State) :
    (s.curCmd = some .init ∧ calSuccess s = finish { s with calOk := true }) ∨
    (s.curCmd = some .read ∧ calSuccess s = enter .trigWr { s with calOk := true }) ∨
    (s.curCmd ≠ some .init ∧ s.curCmd ≠ some .read ∧ calSuccess s = { s with calOk := true }) := by
  unfold calSuccess
  split <;> simp_all

/-- A failed calibration read (R195: the failed answer is tested first). -/
theorem calReadStep_err (c : Cause) (s : State) : calReadStep (.err c) s = fail .comm (some c) .calRd s := rfl

/-- A failed busy read (R195). -/
theorem busyReadStep_err (c : Cause) (s : State) : busyReadStep (.err c) s = fail .comm (some c) .busyRd s := rfl

/-- The calibration read's outcomes, in the order of R195. -/
theorem calReadStep_cases (a : StatusAnswer) (s : State) :
    (∃ c, a = .err c ∧ calReadStep a s = fail .comm (some c) .calRd s) ∨
    (∃ st, a = .ok st ∧ st &&& Config.maskCal ≠ 0#8 ∧ calReadStep a s = calSuccess { s with devstat := st }) ∨
    (∃ st, a = .ok st ∧ st &&& Config.maskCal = 0#8 ∧ s.calPolls < Config.maxCalPolls ∧
      calReadStep a s = enter .calWait { s with devstat := st }) ∨
    (∃ st, a = .ok st ∧ st &&& Config.maskCal = 0#8 ∧ ¬ s.calPolls < Config.maxCalPolls ∧
      calReadStep a s = fail .calFailed none .calRd { s with devstat := st }) := by
  cases a with
  | err c => exact .inl ⟨c, rfl, rfl⟩
  | ok st =>
    by_cases hb : st &&& Config.maskCal = 0#8 <;> by_cases hp : s.calPolls < Config.maxCalPolls <;>
      simp [calReadStep, hb, hp]

/-- The busy read's outcomes, in the order of R195. -/
theorem busyReadStep_cases (a : StatusAnswer) (s : State) :
    (∃ c, a = .err c ∧ busyReadStep a s = fail .comm (some c) .busyRd s) ∨
    (∃ st, a = .ok st ∧ st &&& Config.maskBusy = 0#8 ∧ busyReadStep a s = enter .dataRd { s with devstat := st }) ∨
    (∃ st, a = .ok st ∧ st &&& Config.maskBusy ≠ 0#8 ∧ s.busyPolls < Config.maxBusyPolls ∧
      busyReadStep a s = enter .busyWait { s with devstat := st }) ∨
    (∃ st, a = .ok st ∧ st &&& Config.maskBusy ≠ 0#8 ∧ ¬ s.busyPolls < Config.maxBusyPolls ∧
      busyReadStep a s = fail .stillBusy none .busyRd { s with devstat := st }) := by
  cases a with
  | err c => exact .inl ⟨c, rfl, rfl⟩
  | ok st =>
    by_cases hb : st &&& Config.maskBusy = 0#8 <;> by_cases hp : s.busyPolls < Config.maxBusyPolls <;>
      simp [busyReadStep, hb, hp]

/-! ### Bit 3 and bit 7 of a status byte -/

/-- MASK_CAL tests bit 3 (R88). -/
theorem and_maskCal_eq_zero (st : Byte) : st &&& Config.maskCal = 0#8 ↔ st.getLsbD 3 = false := by
  revert st; decide

/-- MASK_BUSY tests bit 7 (R88). -/
theorem and_maskBusy_eq_zero (st : Byte) : st &&& Config.maskBusy = 0#8 ↔ st.getLsbD 7 = false := by
  revert st; decide

/-! ### The two polls on a byte, each field written out -/

/-- The calibration read answered by a byte: what `t` is, in each case of R138 and R139. -/
theorem calReadStep_ok {st : Byte} {s t : State} (h : calReadStep (.ok st) s = t) :
    (st.getLsbD 3 = true ∧ s.curCmd = some .init ∧ t = { s with
      devstat := st, calOk := true, busy := false, done := true, seq := .idle, inFlight := none, answer := none,
      wait := none, expired := false }) ∨
    (st.getLsbD 3 = true ∧ s.curCmd = some .read ∧ t = { s with
      devstat := st, calOk := true, seq := .trigWr, inFlight := some .wrTrigger, answer := none, wait := none,
      expired := false }) ∨
    (st.getLsbD 3 = true ∧ s.curCmd ≠ some .init ∧ s.curCmd ≠ some .read ∧
      t = { s with devstat := st, calOk := true }) ∨
    (st.getLsbD 3 = false ∧ s.calPolls.toNat < 10 ∧ t = { s with
      devstat := st, seq := .calWait, inFlight := none, answer := none, wait := some 10, expired := false }) ∨
    (st.getLsbD 3 = false ∧ ¬ s.calPolls.toNat < 10 ∧ t = { s with
      devstat := st, err := { kind := .calFailed, cause := none, phase := .calRd }, busy := false, done := true,
      seq := .idle, inFlight := none, answer := none, wait := none, expired := false }) := by
  subst h
  rcases calReadStep_cases (.ok st) s with ⟨c, h, -⟩ | ⟨x, h, hm, heq⟩ | ⟨x, h, hm, hp, heq⟩ | ⟨x, h, hm, hp, heq⟩
  · cases h
  · cases h
    rw [Ne, and_maskCal_eq_zero, Bool.not_eq_false] at hm
    rw [heq]
    rcases calSuccess_cases { s with devstat := st } with ⟨hc, h⟩ | ⟨hc, h⟩ | ⟨hc, hc', h⟩ <;> rw [h]
    · exact .inl ⟨hm, hc, rfl⟩
    · exact .inr (.inl ⟨hm, hc, rfl⟩)
    · exact .inr (.inr (.inl ⟨hm, hc, hc', rfl⟩))
  · cases h
    rw [and_maskCal_eq_zero] at hm
    exact .inr (.inr (.inr (.inl ⟨hm, hp, heq⟩)))
  · cases h
    rw [and_maskCal_eq_zero] at hm
    exact .inr (.inr (.inr (.inr ⟨hm, hp, heq⟩)))

/-- The busy read answered by a byte: what `t` is, in each case of R145. -/
theorem busyReadStep_ok {st : Byte} {s t : State} (h : busyReadStep (.ok st) s = t) :
    (st.getLsbD 7 = false ∧ t = { s with
      devstat := st, seq := .dataRd, inFlight := some .rdSample, answer := none, wait := none, expired := false }) ∨
    (st.getLsbD 7 = true ∧ s.busyPolls.toNat < 10 ∧ t = { s with
      devstat := st, seq := .busyWait, inFlight := none, answer := none, wait := some 10, expired := false }) ∨
    (st.getLsbD 7 = true ∧ ¬ s.busyPolls.toNat < 10 ∧ t = { s with
      devstat := st, err := { kind := .stillBusy, cause := none, phase := .busyRd }, busy := false, done := true,
      seq := .idle, inFlight := none, answer := none, wait := none, expired := false }) := by
  subst h
  rcases busyReadStep_cases (.ok st) s with ⟨c, h, -⟩ | ⟨x, h, hm, heq⟩ | ⟨x, h, hm, hp, heq⟩ | ⟨x, h, hm, hp, heq⟩
  · cases h
  · cases h
    rw [and_maskBusy_eq_zero] at hm
    exact .inl ⟨hm, heq⟩
  · cases h
    rw [Ne, and_maskBusy_eq_zero, Bool.not_eq_false] at hm
    exact .inr (.inl ⟨hm, hp, heq⟩)
  · cases h
    rw [Ne, and_maskBusy_eq_zero, Bool.not_eq_false] at hm
    exact .inr (.inr ⟨hm, hp, heq⟩)

end Sys2Proof.Machine
end

