-- ==== Sys2Proof/Laws/PerInstr.lean ====
section
/-! SUPPORT. One family of statements made per instruction: the length of its encoding. -/

namespace Sys2Proof.Laws

/-- How many bytes the opcode table's row has, in whole bytes, and one more for a transaction's outcome (log 6). -/
def tableBytes : Instr → Nat
  | .nop _ | .init _ | .measure _ | .read _ | .rsvd4 _ | .rsvd5 _ | .rsvd6 _ | .rsvd7 _ => 4
  | .ackDone _ _ _ | .ackRej _ _ _ | .wrIntEn _ _ _ => 4
  | .wrSoftreset _ => 1 + 2
  | .wrTrigger _ => 1 + 4
  | .rdStatus _ => 1 + 2
  | .rdSample _ => 1 + 7
  | .extract _ _ _ _ _ | .extractHum _ | .extractTemp _ => 5
  | .convHum _ | .convTemp _ => 3
  | .f64 _ | .convHum64 _ | .convTemp64 _ => 8

theorem beBytes_length (n w : Nat) : (Machine.beBytes n w).length = n := by
  induction n with
  | zero => rfl
  | succ n ih => simp [Machine.beBytes, ih]

/-- An instruction's bytes are as many as its row's pattern has (R91). -/
def EncodedLength.Statement (i : Instr) : Prop := (encode i).length = tableBytes i

theorem EncodedLength.nop (ign : BitVec 29) : EncodedLength.Statement (.nop ign) := rfl
theorem EncodedLength.init (ign : BitVec 29) : EncodedLength.Statement (.init ign) := rfl
theorem EncodedLength.measure (ign : BitVec 29) : EncodedLength.Statement (.measure ign) := rfl
theorem EncodedLength.read (ign : BitVec 29) : EncodedLength.Statement (.read ign) := rfl
theorem EncodedLength.rsvd4 (ign : BitVec 29) : EncodedLength.Statement (.rsvd4 ign) := rfl
theorem EncodedLength.rsvd5 (ign : BitVec 29) : EncodedLength.Statement (.rsvd5 ign) := rfl
theorem EncodedLength.rsvd6 (ign : BitVec 29) : EncodedLength.Statement (.rsvd6 ign) := rfl
theorem EncodedLength.rsvd7 (ign : BitVec 29) : EncodedLength.Statement (.rsvd7 ign) := rfl
theorem EncodedLength.ackDone (clrRej ign0 : Bool) (ign : BitVec 29) :
    EncodedLength.Statement (.ackDone clrRej ign0 ign) := rfl
theorem EncodedLength.ackRej (clrDone ign0 : Bool) (ign : BitVec 29) :
    EncodedLength.Statement (.ackRej clrDone ign0 ign) := rfl
theorem EncodedLength.wrIntEn (doneIe rejIe : Bool) (ign : BitVec 30) :
    EncodedLength.Statement (.wrIntEn doneIe rejIe ign) := rfl
theorem EncodedLength.wrSoftreset (a : WriteAnswer) : EncodedLength.Statement (.wrSoftreset a) := rfl
theorem EncodedLength.wrTrigger (a : WriteAnswer) : EncodedLength.Statement (.wrTrigger a) := rfl
theorem EncodedLength.rdStatus (a : StatusAnswer) : EncodedLength.Statement (.rdStatus a) := by cases a <;> rfl
theorem EncodedLength.rdSample (a : SampleAnswer) : EncodedLength.Statement (.rdSample a) := by cases a <;> rfl
theorem EncodedLength.extract (d1 d2 d3 d4 d5 : Byte) : EncodedLength.Statement (.extract d1 d2 d3 d4 d5) := rfl
theorem EncodedLength.extractHum (f40 : BitVec 40) : EncodedLength.Statement (.extractHum f40) := beBytes_length _ _
theorem EncodedLength.extractTemp (f40 : BitVec 40) : EncodedLength.Statement (.extractTemp f40) := beBytes_length _ _
theorem EncodedLength.convHum (hc : BitVec 20) : EncodedLength.Statement (.convHum hc) := beBytes_length _ _
theorem EncodedLength.convTemp (tc : BitVec 20) : EncodedLength.Statement (.convTemp tc) := beBytes_length _ _
theorem EncodedLength.f64 (m : Int) : EncodedLength.Statement (.f64 m) := beBytes_length _ _
theorem EncodedLength.convHum64 (hc : BitVec 20) : EncodedLength.Statement (.convHum64 hc) := beBytes_length _ _
theorem EncodedLength.convTemp64 (tc : BitVec 20) : EncodedLength.Statement (.convTemp64 tc) := beBytes_length _ _

end Sys2Proof.Laws
end

