-- ==== Sys2Proof/Laws/Step.lean ====
section
/-! SUPPORT. What one step can do, said once: `step_next_cases`. A rule about every step is a case split over `Move`. -/

namespace Sys2Proof.Machine

/-- The state a defined host write starts from: the access completes on the host bus (R193). -/
abbrev written (s : State) : State := { s with reply := some .writeDone }

/-- What an event can do, `s` being the state with the schedule already moved past it. -/
inductive Move (s : State) : Event → State → Prop where
  | read (off : BitVec 6) (h : off.toNat % 4 = 0) :
      Move s (.hostRead off 4) { s with reply := some (.readData (readReg (regAt off) s)) }
  | writeNothing (off : BitVec 6) (v : Word) (h : off.toNat % 4 = 0)
      (h0 : off = 0x00#6 → v.extractLsb' 0 3 = 0#3)
      (h4 : off = 0x04#6 → v.getLsbD 1 = false ∧ v.getLsbD 2 = false) (h38 : off ≠ 0x38#6) :
      Move s (.hostWrite off 4 v) (written s)
  | acceptCmd (v : Word) (c : Cmd) (hv : v.extractLsb' 0 3 = cmdCode (some c)) (hs : s.seq = .idle)
      (hc : c = .measure → s.calOk = true) : Move s (.hostWrite 0x00#6 4 v) (accept c (written s))
  | rejectCmd (v : Word) (hv : v.extractLsb' 0 3 ≠ 0#3)
      (hr : s.seq ≠ .idle ∨ 4 ≤ (v.extractLsb' 0 3).toNat ∨ (v.extractLsb' 0 3 = 2#3 ∧ s.calOk = false)) :
      Move s (.hostWrite 0x00#6 4 v) (reject (written s))
  | statusWrite (v : Word) : Move s (.hostWrite 0x04#6 4 v) (clearFlags (v.getLsbD 1) (v.getLsbD 2) (written s))
  | intEnWrite (v : Word) :
      Move s (.hostWrite 0x38#6 4 v) { written s with doneIe := v.getLsbD 0, rejIe := v.getLsbD 1 }
  | noTransaction (a : Answer) (h : s.inFlight = none) : Move s (.busAnswer a) s
  | received (f : Frame) (a : Answer) (hf : s.inFlight = some f) (ha : answerListed f a = true) :
      Move s (.busAnswer a) (receive f a s)
  | noWait (h : s.wait = none) : Move s .timerExpires s
  | waitExpired (h : s.wait ≠ none) : Move s .timerExpires (expire s)
  | notCompleted (h : actionCompleted s = false) : Move s .sequencer s
  | softResetAck (hs : s.seq = .resetWr) (ha : s.answer = some (.ok [])) : Move s .sequencer (enter .resetWait s)
  | triggerAck (hs : s.seq = .trigWr) (ha : s.answer = some (.ok [])) : Move s .sequencer (enter .trigWait s)
  | calRead (st : Byte) (hs : s.seq = .calRd) (ha : s.answer = some (.ok [st])) :
      Move s .sequencer (calReadStep (.ok st) s)
  | busyRead (st : Byte) (hs : s.seq = .busyRd) (ha : s.answer = some (.ok [st])) :
      Move s .sequencer (busyReadStep (.ok st) s)
  | sampleRead (d : Sample) (hs : s.seq = .dataRd) (ha : s.answer = some (.ok d.bytes)) :
      Move s .sequencer (finish (commit d s))
  | commFailed (f : Frame) (c : Cause) (hs : s.seq.frame = some f) (ha : s.answer = some (.err c)) (hn : f ≠ .rdSample)
      (hc : c = .dataNack → f ≠ .rdStatus) : Move s .sequencer (fail .comm (some c) s.seq s)
  | sampleFailed (c : Cause) (hs : s.seq = .dataRd) (ha : s.answer = some (.err c)) (hc : c ≠ .dataNack) :
      Move s .sequencer (fail .comm (some c) .dataRd (forgetSample s))
  | calWaitOver (hs : s.seq = .resetWait ∨ s.seq = .calWait) (he : s.expired = true) : Move s .sequencer (startCalRead s)
  | busyWaitOver (hs : s.seq = .trigWait ∨ s.seq = .busyWait) (he : s.expired = true) :
      Move s .sequencer (startBusyRead s)
  | datapath (op : DatapathOp) (bytes : List Byte) (dp : Datapath) :
      Move s (.datapath op bytes) { s with dp := dp }
  | reset : Move s .blockReset (blockReset s)

/-! ### Host accesses -/

theorem accessDefined_iff (off : BitVec 6) (width : Nat) :
    accessDefined off width = true ↔ width = 4 ∧ off.toNat % 4 = 0 := by
  simp [accessDefined]

/-- The decoder reads a host word back from its bytes (R63). -/
theorem leWord_leBytes (v : Word) :
    leWord (v.extractLsb' 0 8) (v.extractLsb' 8 8) (v.extractLsb' 16 8) (v.extractLsb' 24 8) = v := by
  apply BitVec.eq_of_toNat_eq
  simp only [leWord, BitVec.toNat_append, BitVec.extractLsb'_toNat, Nat.shiftRight_eq_div_pow]
  have := v.isLt
  rw [← Nat.shiftLeft_add_eq_or_of_lt, ← Nat.shiftLeft_add_eq_or_of_lt, ← Nat.shiftLeft_add_eq_or_of_lt] <;>
    (try simp only [Nat.shiftLeft_eq]) <;> omega

theorem runBytes_hcmd (v : Word) (s : State) : runBytes .hcmd (leBytes v) s = exec (decodeCommand v) s := by
  simp [runBytes, decode, leBytes, leWord_leBytes]

theorem runBytes_hiew (v : Word) (s : State) : runBytes .hiew (leBytes v) s = exec (decodeIntEn v) s := by
  simp [runBytes, decode, leBytes, leWord_leBytes]

/-- A command word, by its code. -/
theorem exec_decodeCommand (v : Word) (s : State) :
    exec (decodeCommand v) s =
      if v.extractLsb' 0 3 = 0#3 then .next s
      else if s.seq ≠ .idle ∨ 4 ≤ (v.extractLsb' 0 3).toNat ∨ (v.extractLsb' 0 3 = 2#3 ∧ s.calOk = false) then
        .next (reject s)
      else if v.extractLsb' 0 3 = 1#3 then .next (accept .init s)
      else if v.extractLsb' 0 3 = 2#3 then .next (accept .measure s)
      else .next (accept .read s) := by
  unfold decodeCommand
  generalize v.extractLsb' 0 3 = k
  generalize v.extractLsb' 3 29 = ign
  have hk : k = 0#3 ∨ k = 1#3 ∨ k = 2#3 ∨ k = 3#3 ∨ k = 4#3 ∨ k = 5#3 ∨ k = 6#3 ∨ k = 7#3 := by
    revert k; decide
  by_cases hs : s.seq = .idle <;> by_cases hc : s.calOk = true <;>
    rcases hk with rfl | rfl | rfl | rfl | rfl | rfl | rfl | rfl <;>
    simp [exec, execNop, execInit, execMeasure, execRead, execRsvd4, execRsvd5, execRsvd6, execRsvd7, hs, hc]

/-- A STATUS write, whichever of its bits are set (R111). -/
theorem writeEffect_status (v : Word) (s : State) :
    writeEffect 0x04#6 v s = .next (clearFlags (v.getLsbD 1) (v.getLsbD 2) s) := by
  have hr : regAt 0x04#6 = .status := rfl
  simp only [writeEffect, hr, runBytes, decode, leBytes, leWord_leBytes, decodeStatusWrite]
  cases h1 : v.getLsbD 1 <;> cases h2 : v.getLsbD 2 <;> simp [exec, execAckDone, execAckRej, clearFlags]

/-- The offsets of defined accesses. -/
theorem off_cases (off : BitVec 6) (h : off.toNat % 4 = 0) :
    off = 0x00#6 ∨ off = 0x04#6 ∨ off = 0x38#6 ∨
      (off ≠ 0x00#6 ∧ off ≠ 0x04#6 ∧ off ≠ 0x38#6 ∧ ∀ v s, writeEffect off v s = .next s) := by
  have key : ∀ off : BitVec 6, off.toNat % 4 = 0 → off = 0x00#6 ∨ off = 0x04#6 ∨ off = 0x38#6 ∨
      (off ≠ 0x00#6 ∧ off ≠ 0x04#6 ∧ off ≠ 0x38#6 ∧
        regAt off ≠ .ctrl ∧ regAt off ≠ .status ∧ regAt off ≠ .intEn) := by decide
  rcases key off h with h | h | h | ⟨h0, h4, h38, hc, hst, hi⟩
  · exact .inl h
  · exact .inr (.inl h)
  · exact .inr (.inr (.inl h))
  · refine .inr (.inr (.inr ⟨h0, h4, h38, fun v s => ?_⟩))
    unfold writeEffect
    cases hr : regAt off <;> simp_all

theorem hostWrite_move {off : BitVec 6} {width : Nat} {v : Word} {s t : State}
    (h : hostWrite off width v s = .next t) : Move s (.hostWrite off width v) t := by
  unfold hostWrite at h
  split at h
  case isFalse => cases h
  case isTrue hd =>
    obtain ⟨rfl, ha⟩ := (accessDefined_iff off width).1 hd
    rcases off_cases off ha with rfl | rfl | rfl | ⟨h0, h4, h38, hw⟩
    · have hr : regAt 0x00#6 = .ctrl := rfl
      simp only [writeEffect, hr, runBytes_hcmd, exec_decodeCommand] at h
      split at h
      case isTrue hz => cases h; exact .writeNothing _ v ha (fun _ => hz) (fun h => absurd h (by decide)) (by decide)
      case isFalse hz =>
        split at h
        case isTrue hrej => cases h; exact .rejectCmd v hz hrej
        case isFalse hrej =>
          simp only [not_or, not_not, not_and, Bool.not_eq_false] at hrej
          split at h
          case isTrue h1 => cases h; exact .acceptCmd v .init h1 hrej.1 (fun h => by cases h)
          case isFalse h1 =>
            split at h
            case isTrue h2 => cases h; exact .acceptCmd v .measure h2 hrej.1 (fun _ => hrej.2.2 h2)
            case isFalse h2 =>
              cases h
              refine .acceptCmd v .read ?_ hrej.1 (fun h => by cases h)
              have hlt := hrej.2.1
              revert hz h1 h2 hlt
              generalize v.extractLsb' 0 3 = k
              revert k
              decide
    · rw [writeEffect_status] at h
      cases h; exact .statusWrite v
    · have hr : regAt 0x38#6 = .intEn := rfl
      simp only [writeEffect, hr, runBytes_hiew, decodeIntEn, exec, execWrIntEn] at h
      cases h; exact .intEnWrite v
    · rw [hw] at h
      cases h; exact .writeNothing off v ha (fun h => absurd h h0) (fun h => absurd h h4) h38

/-! ### Answers -/

/-- A list of six bytes is a sample. -/
theorem six_bytes {data : List Byte} (h : data.length = 6) : ∃ d : Sample, data = d.bytes := by
  match data, h with
  | [d0, d1, d2, d3, d4, d5], _ => exact ⟨⟨d0, d1, d2, d3, d4, d5⟩, rfl⟩

/-- The instruction of an answered frame, written out: one case for each frame and kind of answer. -/
inductive Answered : Frame → Answer → Instr → Prop where
  | softReset : Answered .wrSoftreset (.ok []) (.wrSoftreset .ok)
  | softResetErr (c : Cause) : Answered .wrSoftreset (.err c) (.wrSoftreset (.err c))
  | trigger : Answered .wrTrigger (.ok []) (.wrTrigger .ok)
  | triggerErr (c : Cause) : Answered .wrTrigger (.err c) (.wrTrigger (.err c))
  | status (st : Byte) : Answered .rdStatus (.ok [st]) (.rdStatus (.ok st))
  | statusErr (c : Cause) (hc : c ≠ .dataNack) : Answered .rdStatus (.err c) (.rdStatus (.err c))
  | sample (d : Sample) : Answered .rdSample (.ok d.bytes) (.rdSample (.ok d))
  | sampleErr (c : Cause) (hc : c ≠ .dataNack) : Answered .rdSample (.err c) (.rdSample (.err c))

/-- What an answer decodes to, on the closed list. -/
theorem decodeAnswer_listed {f : Frame} {a : Answer} (h : answerListed f a = true) :
    ∃ i, decodeAnswer f a = .ok i ∧ Answered f a i := by
  cases a with
  | err c =>
    cases f <;> cases c <;> first | (exact absurd h (by decide)) | exact ⟨_, rfl, by constructor <;> decide⟩
  | ok data =>
    have hlen : data.length = deviceBytes f := by simpa [answerListed] using h
    cases f with
    | wrSoftreset => obtain rfl := List.length_eq_zero_iff.1 hlen; exact ⟨_, rfl, .softReset⟩
    | wrTrigger => obtain rfl := List.length_eq_zero_iff.1 hlen; exact ⟨_, rfl, .trigger⟩
    | rdStatus => obtain ⟨b, rfl⟩ := List.length_eq_one_iff.1 hlen; exact ⟨_, rfl, .status b⟩
    | rdSample => obtain ⟨d, rfl⟩ := six_bytes hlen; exact ⟨_, rfl, .sample d⟩

/-- Off the closed list an answer does not decode. -/
theorem decodeAnswer_unlisted {f : Frame} {a : Answer} (h : answerListed f a = false) :
    ∃ e, decodeAnswer f a = .rejected e := by
  cases a with
  | err c => cases f <;> cases c <;> first | (exact absurd h (by decide)) | exact ⟨_, rfl⟩
  | ok data =>
    have hf : answerFits f (.ok data) = false := h
    exact ⟨.wrongLength, by simp [decodeAnswer, hf]⟩

theorem decodeAnswer_cases {f : Frame} {a : Answer} {i : Instr} (h : decodeAnswer f a = .ok i) :
    answerListed f a = true ∧ Answered f a i := by
  cases hl : answerListed f a with
  | false => obtain ⟨e, he⟩ := decodeAnswer_unlisted hl; rw [he] at h; cases h
  | true =>
    obtain ⟨j, hj, hA⟩ := decodeAnswer_listed hl
    rw [hj] at h; cases h; exact ⟨rfl, hA⟩

/-- The oracle's step. -/
theorem busAnswer_move {a : Answer} {s t : State} (h : busAnswer a s = .next t) : Move s (.busAnswer a) t := by
  unfold busAnswer at h
  split at h
  case h_2 hn => cases h; exact .noTransaction a hn
  case h_1 f hf =>
    split at h
    case h_2 => cases h
    case h_1 i hi => cases h; exact .received f a hf (decodeAnswer_cases hi).1

/-- The oracle's step, on the closed list. -/
theorem busAnswer_listed {f : Frame} {a : Answer} {s : State} (hf : s.inFlight = some f)
    (ha : answerListed f a = true) : busAnswer a s = .next (receive f a s) := by
  obtain ⟨i, hi, -⟩ := decodeAnswer_listed ha
  simp [busAnswer, hf, hi]

/-- The oracle's step, off it. -/
theorem busAnswer_unlisted {f : Frame} {a : Answer} {s : State} (hf : s.inFlight = some f)
    (ha : answerListed f a = false) : ∃ e, busAnswer a s = .refused (.undecodable e) := by
  obtain ⟨e, he⟩ := decodeAnswer_unlisted ha
  exact ⟨e, by simp [busAnswer, hf, he]⟩

/-! ### The timer and the sequencer -/

theorem timerExpires_move (s : State) : Move s .timerExpires (timerExpires s) := by
  unfold timerExpires
  cases hw : s.wait with
  | none => exact .noWait hw
  | some ms => exact .waitExpired (by simp [hw])

theorem answeredWith_iff {q : SeqState} {a : Answer} {s : State} :
    answeredWith q a s = true ↔ s.seq = q ∧ s.answer = some a := by
  simp [answeredWith]

/-- The sequencer's step in a wait state. -/
theorem waitOver_move {s : State} (h : s.seq.frame = none) : Move s .sequencer (waitOver s) := by
  cases he : s.expired with
  | false => simpa [waitOver, he] using Move.notCompleted (by simp [actionCompleted, he, h])
  | true =>
    cases hs : s.seq <;> simp only [waitOver, he, hs, if_true]
    case resetWait => exact .calWaitOver (.inl hs) he
    case calWait => exact .calWaitOver (.inr hs) he
    case trigWait => exact .busyWaitOver (.inl hs) he
    case busyWait => exact .busyWaitOver (.inr hs) he
    case idle => exact .notCompleted (by simp [actionCompleted, hs, SeqState.frame, SeqState.delay])
    all_goals (rw [hs] at h; cases h)

/-- The sequencer's step in a bus state whose transaction has been answered. -/
theorem answered_move {f : Frame} {a : Answer} {i : Instr} {s t : State} (hf : s.seq.frame = some f)
    (ha : s.answer = some a) (hA : Answered f a i) (hx : exec i s = .next t) : Move s .sequencer t := by
  cases hs : s.seq <;> rw [hs] at hf <;> simp only [SeqState.frame, Option.some.injEq, reduceCtorEq] at hf <;> subst hf <;>
    cases hA
  all_goals
    simp only [exec, execWrSoftreset, execWrTrigger, execRdStatus, execRdSample, answeredWith, answerOfWrite,
      answerOfStatus, answerOfSample, hs, ha, calReadStep_err, busyReadStep_err, reduceCtorEq, decide_true, decide_false,
      Bool.and_self, Bool.false_and, Bool.false_eq_true, if_true, if_false] at hx
  case resetWr.softReset => cases hx; exact .softResetAck hs ha
  case trigWr.trigger => cases hx; exact .triggerAck hs ha
  case calRd.status st => cases hx; exact .calRead st hs ha
  case busyRd.status st => cases hx; exact .busyRead st hs ha
  case dataRd.sample d => cases hx; exact .sampleRead d hs ha
  case dataRd.sampleErr c hc => cases hx; exact .sampleFailed c hs ha hc
  all_goals
    rename_i c
    cases hx
    first
      | exact hs ▸ Move.commFailed .wrSoftreset _ (by rw [hs]; rfl) ha (by decide) (fun _ => by decide)
      | exact hs ▸ Move.commFailed .wrTrigger _ (by rw [hs]; rfl) ha (by decide) (fun _ => by decide)
      | exact hs ▸ Move.commFailed .rdStatus _ (by rw [hs]; rfl) ha (by decide) (fun h => absurd h ‹_›)

theorem sequencerStep_move {s t : State} (h : sequencerStep s = .next t) : Move s .sequencer t := by
  unfold sequencerStep at h
  split at h
  case h_2 hf => cases h; exact waitOver_move hf
  case h_1 f hf =>
    split at h
    case h_2 ha =>
      cases h
      refine .notCompleted ?_
      cases hs : s.seq <;> simp_all [actionCompleted, SeqState.frame, SeqState.delay]
    case h_1 a ha =>
      split at h
      case h_2 => cases h
      case h_1 i hi => exact answered_move hf ha (decodeAnswer_cases hi).2 h

/-- The sequencer's step in a bus state runs the instruction of its answered transaction. -/
theorem sequencerStep_answered {f : Frame} {a : Answer} {s : State} (hf : s.seq.frame = some f)
    (ha : s.answer = some a) (hl : answerListed f a = true) : ∃ i, Answered f a i ∧ sequencerStep s = exec i s := by
  obtain ⟨i, hi, hA⟩ := decodeAnswer_listed hl
  exact ⟨i, hA, by simp [sequencerStep, hf, ha, hi]⟩

/-- The sequencer's step where its action has not completed. -/
theorem sequencerStep_notCompleted {s : State} (h : actionCompleted s = false) : sequencerStep s = .next s := by
  cases hs : s.seq <;> simp_all [actionCompleted, sequencerStep, waitOver, SeqState.frame, SeqState.delay]

/-! ### The datapath -/

/-- What a datapath word decodes to writes latches and nothing else. -/
theorem decodeDatapath_meaning {op : DatapathOp} {bytes : List Byte} {i : Instr}
    (h : decodeDatapath op bytes = .ok i) (s : State) : ∃ dp, exec i s = .next { s with dp := dp } := by
  unfold decodeDatapath at h
  split at h
  all_goals
    first
      | (cases h; exact ⟨_, rfl⟩)
      | (unfold decodeCode at h; split at h <;> cases h; exact ⟨_, rfl⟩)
      | (unfold decodeResult at h; split at h <;> cases h; exact ⟨_, rfl⟩)
      | cases h

theorem runBytes_datapath {op : DatapathOp} {bytes : List Byte} {s t : State}
    (h : runBytes (.datapath op) bytes s = .next t) : ∃ dp, t = { s with dp := dp } := by
  simp only [runBytes, decode] at h
  split at h
  case h_2 => cases h
  case h_1 i hi =>
    obtain ⟨dp, hx⟩ := decodeDatapath_meaning hi s
    rw [hx] at h
    cases h
    exact ⟨dp, rfl⟩

/-! ### The step -/

theorem step_nil {s : State} (h : s.schedule = []) : step s = .next s := by
  simp [step, runNext, h]

theorem step_cons {s : State} {e : Event} {rest : List Event} (h : s.schedule = e :: rest) :
    step s = runEvent e { s with schedule := rest } := by
  simp [step, runNext, h]

/-- Everything a step can do when it answers next. -/
theorem step_next_cases {s t : State} (h : step s = .next t) :
    (s.schedule = [] ∧ t = s) ∨ ∃ e rest, s.schedule = e :: rest ∧ Move { s with schedule := rest } e t := by
  cases hsch : s.schedule with
  | nil => rw [step_nil hsch] at h; cases h; exact .inl ⟨rfl, rfl⟩
  | cons e rest =>
    rw [step_cons hsch] at h
    refine .inr ⟨e, rest, rfl, ?_⟩
    cases e with
    | hostRead off width =>
      simp only [runEvent, hostRead] at h
      split at h
      case isFalse => cases h
      case isTrue hd =>
        obtain ⟨rfl, ha⟩ := (accessDefined_iff off width).1 hd
        cases h; exact .read off ha
    | hostWrite off width v => exact hostWrite_move h
    | busAnswer a => exact busAnswer_move h
    | timerExpires =>
      simp only [runEvent] at h
      cases h; exact timerExpires_move _
    | sequencer => exact sequencerStep_move h
    | datapath op bytes =>
      obtain ⟨dp, rfl⟩ := runBytes_datapath h
      exact .datapath op bytes dp
    | blockReset =>
      simp only [runEvent] at h
      cases h; exact .reset

/-- A behaviour's step is a move. -/
theorem step_scheduleFirst {e : Event} {s t : State} (h : step (scheduleFirst e s) = .next t) : Move s e t := by
  rcases step_next_cases h with ⟨h, -⟩ | ⟨_, _, h, hm⟩
  · cases h
  · cases h; exact hm

/-! ### The invariants do not speak of the schedule -/

theorem inv_schedule {s : State} (h : Inv s) (l : List Event) : Inv { s with schedule := l } :=
  ⟨⟨h.spec.busy_iff, h.spec.busy_not_done, h.spec.valid_means, h.spec.err_means, h.spec.busy_means,
      h.spec.results_clear, h.spec.polls_bounded, h.spec.busy_polls_calibrated⟩,
    ⟨h.consistent.transaction, h.consistent.timer, h.consistent.init_part, h.consistent.measure_part,
      h.consistent.polls, h.consistent.data_ready, h.consistent.init_polls, h.consistent.measure_polls,
      h.consistent.cal_started, h.consistent.valid_polls, h.consistent.decoded, h.consistent.calibrated,
      h.consistent.error⟩⟩

theorem counted_schedule {s : State} (h : Counted s) (l : List Event) : Counted { s with schedule := l } :=
  ⟨h.ended, h.soft_resets, h.triggers, h.status_reads, h.sample_reads⟩

end Sys2Proof.Machine
end

