-- ==== Sys2Proof/Laws/Safety.lean ====
section
/-! SUPPORT. What `nearest` gives, whichever way it breaks a tie. -/

namespace Sys2Proof.Machine

theorem isNearest_nearest (x : ℚ) : IsNearest (nearest x) x := by
  have h := Int.floor_le (x + 1 / 2)
  have h' := Int.lt_floor_add_one (x + 1 / 2)
  rw [IsNearest, nearest, abs_le]
  constructor <;> linarith

end Sys2Proof.Machine
end

