-- ==== Sys2Proof/Tests/Slice0.lean ====
section
/-! SUPPORT. The model's own tests: words written out from the spec's encodings, one step of each instruction with values
from 95_test_vectors.md, what WellFormed refuses, and for every obligation with hypotheses a state that meets them. -/

namespace Sys2Proof.Tests

open Sys2Proof.Machine

/-- What `f` sees of the next state, none where the machine stops. -/
def after {α : Type} (o : Host.Outcome State Fault Refusal) (f : State → α) : Option α :=
  match o with
  | .next s => some (f s)
  | .fault _ => none
  | .refused _ => none

/-- The three words a test looks at: STATUS, ERROR and POLLS. -/
def words (s : State) : Word × Word × Word := (readReg .status s, readReg .error s, readReg .polls s)

/-! ### States -/

/-- The block in a state of the sequencer, its action pending. -/
def at_ (q : SeqState) (cmd : Cmd) (calPolls busyPolls : BitVec 4) : State :=
  { State.reset with
    busy := true, seq := q, curCmd := some cmd, calOk := q.inMeasure, calPolls := calPolls, busyPolls := busyPolls,
    inFlight := q.frame, wait := q.delay }

/-- The oracle has answered the transaction of `s` with `a`, and the sequencer has not stepped yet. -/
def got (a : Answer) (s : State) : State := { s with inFlight := none, answer := some a }

/-- IDLE after an INIT that calibrated at the first poll with 0x08 (R103). -/
def calibrated : State :=
  { State.reset with
    done := true, calOk := true, curCmd := some .init, calPolls := 1#4, devstat := 0x08#8, cmdTxns := 2,
    history := [{ frame := .rdStatus, result := .ok [0x08#8] }, { frame := .wrSoftreset, result := .ok [] }] }

/-- The start of the acceptance vector (95_test_vectors.md 2.3): STATUS 0x2036, ERROR 0x703, POLLS 0xA00, DEVSTAT 0x88. -/
def acceptanceStart : State :=
  { State.reset with
    done := true, rej := true, calOk := true, curCmd := some .measure, busyPolls := 10#4, devstat := 0x88#8,
    err := { kind := .stillBusy, cause := none, phase := .busyRd }, cmdTxns := 11,
    history := List.replicate 10 { frame := .rdStatus, result := .ok [0x88#8] } ++
      [{ frame := .wrTrigger, result := .ok [] }] }

/-! ### Decoding: words written out bit by bit from 30_encoding.md and the opcode table -/

theorem test_decode_nop : decode .hcmd [0b11111000#8, 0xFF#8, 0xFF#8, 0xFF#8] = .ok (.nop 0x1FFFFFFF#29) := by decide
theorem test_decode_init : decode .hcmd [0b00000001#8, 0#8, 0#8, 0#8] = .ok (.init 0#29) := by decide
theorem test_decode_measure : decode .hcmd [0b00000010#8, 0#8, 0#8, 0x80#8] = .ok (.measure 0x10000000#29) := by decide
theorem test_decode_read : decode .hcmd [0b00000011#8, 0#8, 0#8, 0x80#8] = .ok (.read 0x10000000#29) := by decide
theorem test_decode_rsvd4 : decode .hcmd [0b00000100#8, 0#8, 0#8, 0#8] = .ok (.rsvd4 0#29) := by decide
theorem test_decode_rsvd5 : decode .hcmd [0b00000101#8, 0#8, 0#8, 0#8] = .ok (.rsvd5 0#29) := by decide
theorem test_decode_rsvd6 : decode .hcmd [0b00000110#8, 0#8, 0#8, 0#8] = .ok (.rsvd6 0#29) := by decide
theorem test_decode_rsvd7 : decode .hcmd [0b00001111#8, 0#8, 0#8, 0#8] = .ok (.rsvd7 1#29) := by decide
theorem test_decode_ackDone : decode .hstw [0b00000010#8, 0#8, 0#8, 0#8] = .ok (.ackDone false false 0#29) := by decide
theorem test_decode_ackAll : decode .hstw [0b00000111#8, 0#8, 0#8, 0#8] = .ok (.ackDone true true 0#29) := by decide
theorem test_decode_ackRej : decode .hstw [0b00001100#8, 0#8, 0#8, 0#8] = .ok (.ackRej false false 1#29) := by decide
theorem test_decode_wrIntEn : decode .hiew [0b00000001#8, 0#8, 0#8, 0x80#8] =
  .ok (.wrIntEn true false 0x20000000#30) := by
  decide
theorem test_decode_wrSoftreset :
    decode .i2cWrite [0#8, 0b01110000#8, 0b10111010#8] = .ok (.wrSoftreset .ok) := by decide
theorem test_decode_wrTrigger :
    decode .i2cWrite [0#8, 0b01110000#8, 0b10101100#8, 0b00110011#8, 0b00000000#8] = .ok (.wrTrigger .ok) := by decide
theorem test_decode_rdStatus : decode .i2cRead [0#8, 0b01110001#8, 0b10011000#8] = .ok (.rdStatus (.ok 0x98#8)) := by
  decide
theorem test_decode_rdSample :
    decode .i2cRead [0#8, 0b01110001#8, 0x1C#8, 0x80#8, 0x00#8, 0x08#8, 0x00#8, 0x01#8] =
      .ok (.rdSample (.ok ⟨0x1C#8, 0x80#8, 0x00#8, 0x08#8, 0x00#8, 0x01#8⟩)) := by decide
theorem test_decode_extract : decode (.datapath .extract) [0x12#8, 0x34#8, 0x56#8, 0x78#8, 0x9A#8] =
    .ok (.extract 0x12#8 0x34#8 0x56#8 0x78#8 0x9A#8) := by decide
theorem test_decode_extractHum : decode (.datapath .extractHum) [0x12#8, 0x34#8, 0x56#8, 0x78#8, 0x9A#8] =
    .ok (.extractHum 0x123456789A#40) := by decide
theorem test_decode_extractTemp : decode (.datapath .extractTemp) [0xAA#8, 0x55#8, 0xAA#8, 0x55#8, 0xAA#8] =
    .ok (.extractTemp 0xAA55AA55AA#40) := by decide
theorem test_decode_convHum : decode (.datapath .convHum) [0x05#8, 0xF0#8, 0xE5#8] = .ok (.convHum 0x5F0E5#20) := by
  decide
theorem test_decode_convTemp : decode (.datapath .convTemp) [0x06#8, 0x1A#8, 0x2B#8] = .ok (.convTemp 0x61A2B#20) := by
  decide
/-- R177's worked example, s = 1, e = 0x404, f = 0x5E00000000000. -/
theorem test_decode_f64 : decode (.datapath .f64) [0xC0#8, 0x45#8, 0xE0#8, 0#8, 0#8, 0#8, 0#8, 0#8] =
    .ok (.f64 (-45875200)) := by decide
theorem test_decode_convHum64 : decode (.datapath .convHum64) [0x40#8, 0x58#8, 0xFF#8, 0xFE#8, 0x70#8, 0#8, 0#8, 0#8] =
    .ok (.convHum64 0xFFFFF#20) := by decide
theorem test_decode_convTemp64 : decode (.datapath .convTemp64) [0xBF#8, 0x29#8, 0#8, 0#8, 0#8, 0#8, 0#8, 0#8] =
    .ok (.convTemp64 0x3FFFF#20) := by decide

/-! ### What the decoder rejects, by name -/

theorem test_reject_length : decode .hcmd [1#8, 0#8] = .rejected .wrongLength := by decide
theorem test_reject_foreign : decode .i2cWrite [0#8, 0x70#8, 0xE1#8] = .rejected .foreignFrame := by decide
theorem test_reject_foreign_address : decode .i2cRead [0#8, 0x73#8, 0x18#8] = .rejected .foreignFrame := by decide
theorem test_reject_noAcknowledge : decode .hstw [0xF9#8, 0xFF#8, 0xFF#8, 0xFF#8] = .rejected .noAcknowledge := by
  decide
theorem test_reject_outcome : decode .i2cWrite [4#8, 0x70#8, 0xBA#8] = .rejected .unknownOutcome := by decide
theorem test_reject_dataNack : decode .i2cRead [2#8, 0x71#8, 0#8] = .rejected .dataNackOnRead := by decide
theorem test_reject_bytesAfterError : decode .i2cRead [1#8, 0x71#8, 1#8] = .rejected .bytesAfterError := by decide
theorem test_reject_code : decode (.datapath .convHum) [0x10#8, 0#8, 0#8] = .rejected .bitsAboveCode := by decide
/-- -0.0 is no result (R177: "+0.0, never -0.0"). -/
theorem test_reject_minusZero :
    decode (.datapath .f64) [0x80#8, 0#8, 0#8, 0#8, 0#8, 0#8, 0#8, 0#8] = .rejected .notAResult := by decide

/-! ### WellFormed: an ill-formed term for each check -/

theorem test_illFormed_status : (Instr.rdStatus (.err .dataNack)).wellFormed = false := by decide
theorem test_illFormed_sample : (Instr.rdSample (.err .dataNack)).wellFormed = false := by decide
theorem test_illFormed_f64 : (Instr.f64 (2 ^ 52)).wellFormed = false := by decide
theorem test_illFormed_f64_negative : (Instr.f64 (-(2 ^ 52))).wellFormed = false := by decide
theorem test_illFormed_ackRej : (Instr.ackRej true false 0#29).wellFormed = false := by decide
theorem test_wellFormed_bounds : (Instr.f64 (2 ^ 52 - 1)).wellFormed = true ∧
    (Instr.rdStatus (.err .busError)).wellFormed = true ∧ (Instr.wrTrigger (.err .dataNack)).wellFormed = true :=
      by decide

/-! ### Commands: 95_test_vectors.md 2.3 -/

theorem test_nop_busy : after (exec (.nop 0#29) (at_ .busyRd .measure 0#4 1#4)) words =
    some (0x00002711#32, 0#32, 0x100#32) := by decide
/-- P9: STATUS 0x1101 after an accepted INIT. -/
theorem test_init : after (exec (.init 0#29) State.reset) words = some (0x00001101#32, 0#32, 0#32) := by decide
/-- "as INIT", CAL_OK -> 0. -/
theorem test_init_clears_calOk : after (exec (.init 0#29) calibrated) (·.calOk) = some false := by decide
/-- The acceptance vector: STATUS 0x2515, ERROR 0, POLLS 0. -/
theorem test_measure : after (exec (.measure 0#29) acceptanceStart) words = some (0x00002515#32, 0#32, 0#32) := by
  decide
/-- P2: MEASURE without CAL_OK is rejected. -/
theorem test_measure_uncalibrated : after (exec (.measure 0#29) State.reset) words =
  some (0x00000004#32, 0#32, 0#32) := by decide
/-- P1: STATUS 0x3101. -/
theorem test_read : after (exec (.read 0#29) State.reset) words = some (0x00003101#32, 0#32, 0#32) := by decide
/-- S-18: READ during TRIG_WAIT sets REJ and the wait goes on. -/
theorem test_read_busy : after (exec (.read 0#29) (at_ .trigWait .measure 0#4 0#4)) (fun s => (words s, s.wait)) =
    some ((0x00002615#32, 0#32, 0#32), some 80) := by decide
theorem test_rsvd4 : after (exec (.rsvd4 0#29) State.reset) words = some (0x4#32, 0#32, 0#32) := by decide
theorem test_rsvd5 : after (exec (.rsvd5 0#29) State.reset) words = some (0x4#32, 0#32, 0#32) := by decide
theorem test_rsvd6 : after (exec (.rsvd6 0#29) State.reset) words = some (0x4#32, 0#32, 0#32) := by decide
/-- R106's example. -/
theorem test_rsvd7 : after (exec (.rsvd7 0#29) calibrated) words = some (0x00001016#32, 0#32, 0x1#32) := by decide

/-! ### Register writes: 95_test_vectors.md 2.4 -/

theorem test_ackDone : after (exec (.ackDone false false 0#29) acceptanceStart) (readReg .status) = some 0x2034#32 := by
  decide
theorem test_ackRej : after (exec (.ackRej false false 0#29) acceptanceStart) (readReg .status) = some 0x2032#32 := by
  decide
/-- P2's `ack ALL`. -/
theorem test_ackAll : after (exec (.ackDone true false 0#29) acceptanceStart) (readReg .status) = some 0x2030#32 := by
  decide
/-- DONE = 1, INT_EN = 0, `wr INT_EN, 0x1`: irq = 1. -/
theorem test_wrIntEn : after (exec (.wrIntEn true false 0#30) calibrated) (fun s => (readReg .intEn s, irq s)) =
    some (1#32, true) := by decide
/-- REJ = 1, DONE = 0, INT_EN = 1: irq = 0. -/
theorem test_irq_masked : irq { State.reset with rej := true, doneIe := true } = false := by decide
/-- A STATUS write of 0xFFFFFFF9 leaves STATUS unchanged. -/
theorem test_status_write_nothing :
    after (writeEffect 0x04#6 0xFFFFFFF9#32 acceptanceStart) (readReg .status) = some 0x2036#32 := by decide
theorem test_param_write : after (writeEffect 0x3C#6 0#32 State.reset) (readReg .param) = some 0x00000A38#32 := by
  decide
/-- A 16-bit write of 3 at offset 0 starts nothing. -/
theorem test_narrow_write : hostWrite 0x00#6 2 3#32 State.reset = .fault (.accessError 0 2) := rfl
theorem test_unaligned_write : hostWrite 0x01#6 4 1#32 State.reset = .fault (.accessError 1 4) := rfl
theorem test_narrow_read : hostRead 0x04#6 1 State.reset = .fault (.accessError 4 1) := rfl

/-! ### Sequencer steps: 95_test_vectors.md 2.5 -/

/-- S-1. -/
theorem test_wrSoftreset : after (exec (.wrSoftreset .ok) (got (.ok []) (at_ .resetWr .init 0#4 0#4)))
  (fun s => (s.seq, s.wait)) =
    some (.resetWait, some 20) := by decide
/-- S-2: ERROR 0x121. -/
theorem test_wrSoftreset_nack : after (exec (.wrSoftreset (.err .dataNack))
  (got (.err .dataNack) (at_ .resetWr .init 0#4 0#4))) words =
    some (0x00001022#32, 0x121#32, 0#32) := by decide
/-- S-3. -/
theorem test_resetWait : words (waitOver (expire (at_ .resetWait .init 0#4 0#4))) = (0x00001301#32, 0#32, 1#32) := by
  decide
/-- S-4 and S-5. -/
theorem test_rdStatus_cal : after (exec (.rdStatus (.ok 0x08#8))
  (got (.ok [0x08#8]) (at_ .calRd .init 1#4 0#4))) words =
    some (0x00001012#32, 0#32, 1#32) ∧
    after (exec (.rdStatus (.ok 0x88#8)) (got (.ok [0x88#8]) (at_ .calRd .read 1#4 0#4))) words =
      some (0x00003511#32, 0#32, 1#32) := by decide
/-- S-7, S-8, S-9 and S-14. -/
theorem test_rdStatus_fail : after (exec (.rdStatus (.ok 0x80#8))
  (got (.ok [0x80#8]) (at_ .calRd .init 10#4 0#4))) (readReg .error) =
    some 0x302#32 ∧
    after (exec (.rdStatus (.err .addrNack)) (got (.err .addrNack) (at_ .calRd .init 10#4 0#4))) (readReg .error) =
      some 0x311#32 ∧
    after (exec (.rdStatus (.err .busError))
      (got (.err .busError) (at_ .busyRd .measure 0#4 4#4))) (readReg .error) = some 0x731#32 ∧
    after (exec (.rdStatus (.ok 0xFF#8)) (got (.ok [0xFF#8]) (at_ .busyRd .measure 0#4 10#4))) (readReg .error) =
      some 0x703#32 := by decide
/-- S-6, S-10, S-11 and S-12. -/
theorem test_rdStatus_moves : after (exec (.rdStatus (.ok 0xF7#8))
  (got (.ok [0xF7#8]) (at_ .calRd .init 9#4 0#4))) (·.seq) = some .calWait ∧
    after (exec (.rdStatus (.ok 0x00#8)) (got (.ok [0x00#8]) (at_ .busyRd .measure 0#4 1#4))) (·.seq) = some .dataRd ∧
    after (exec (.rdStatus (.ok 0x7F#8)) (got (.ok [0x7F#8]) (at_ .busyRd .measure 0#4 1#4))) (·.seq) = some .dataRd ∧
    after (exec (.rdStatus (.ok 0x80#8)) (got (.ok [0x80#8]) (at_ .busyRd .measure 0#4 9#4))) (·.seq) =
      some .busyWait := by decide
/-- S-13. -/
theorem test_busyWait : words (waitOver (expire (at_ .busyWait .measure 0#4 9#4))) =
  (0x00002711#32, 0#32, 0xA00#32) := by decide
theorem test_wrTrigger : after (exec (.wrTrigger .ok) (got (.ok []) (at_ .trigWr .measure 0#4 0#4)))
  (fun s => (s.seq, s.wait)) =
    some (.trigWait, some 80) := by decide
/-- R142's example: ERROR 0x521. -/
theorem test_wrTrigger_nack : after (exec (.wrTrigger (.err .dataNack))
  (got (.err .dataNack) (at_ .trigWr .measure 0#4 0#4))) words =
    some (0x00002032#32, 0x521#32, 0#32) := by decide
/-- P6: the source's bytes, with the corrected temperature (C1). -/
theorem test_rdSample : after (exec (.rdSample (.ok ⟨0x1C#8, 0x80#8, 0x00#8, 0x00#8, 0x80#8, 0x00#8⟩))
    (got (.ok [0x1C#8, 0x80#8, 0x00#8, 0x00#8, 0x80#8, 0x00#8]) (at_ .dataRd .read 1#4 1#4)))
      (fun s => [readReg .status s, readReg .rawstat s, readReg .fieldHi s, readReg .fieldLo s,
      readReg .humCode s, readReg .tempCode s, readReg .humF64Lo s, readReg .humF64Hi s, readReg .tempF64Lo s,
      readReg .tempF64Hi s]) = some [0x0000301A#32, 0x1C#32, 0x80#32, 0x00008000#32, 0x80000#32, 0x08000#32, 0#32,
      0x40490000#32, 0#32, 0xC045E000#32] := by decide
/-- P3's third command: ERROR 0x911. -/
theorem test_rdSample_nack : after (exec (.rdSample (.err .addrNack))
  (got (.err .addrNack) (at_ .dataRd .measure 0#4 1#4))) words =
    some (0x00002032#32, 0x911#32, 0x100#32) := by decide
/-- R13: the oracle's step alone ends the transaction and moves nothing of the block. -/
theorem test_oracle_step : after (busAnswer (.ok []) (at_ .resetWr .init 0#4 0#4))
    (fun s => (s.seq, s.inFlight, s.answer, words s)) =
      some (.resetWr, none, some (.ok []), (0x00001101#32, 0#32, 0#32)) := by decide
/-- R13, R101: a host write between the last answer and the sequencer's step finds the command running. -/
theorem test_write_between : after (exec (.read 0#29)
  (got (.ok [0x08#8]) (at_ .calRd .init 1#4 0#4))) (readReg .status) =
    some 0x00001305#32 := by decide
/-- R220: a block reset between the answer and the sequencer's step abandons nothing, the transaction having ended. -/
theorem test_reset_between :
    (fun s => (s.history, s.answer, words s)) (blockReset (got (.ok []) (at_ .resetWr .init 0#4 0#4))) =
      ([], none, (0#32, 0#32, 0#32)) := by decide
/-- P9: block reset from RESET_WR. -/
theorem test_blockReset : words (blockReset (at_ .resetWr .init 0#4 0#4)) = (0#32, 0#32, 0#32) := by decide

/-! ### Datapath: 95_test_vectors.md 2.1 and 2.2 -/

theorem test_extract : after (exec (.extract 0x5F#8 0x0E#8 0x56#8 0x1A#8 0x2B#8) State.reset) (·.dp.f40) =
    some 0x5F0E561A2B#40 := by decide
theorem test_extractHum : after (exec (.extractHum 0x0000F00000#40) State.reset) (·.dp.hc) = some 0x0000F#20 := by
  decide
theorem test_extractTemp : after (exec (.extractTemp 0x00000F0000#40) State.reset) (·.dp.tc) = some 0xF0000#20 := by
  decide
/-- 6.25 = 6553600 / 2^20. -/
theorem test_convHum : after (exec (.convHum 0x10000#20) State.reset) (·.dp.hum) = some 6553600 := by decide
/-- R177's M. -/
theorem test_convTemp : after (exec (.convTemp 0x08000#20) State.reset) (·.dp.temp) = some (-45875200) := by decide
theorem test_f64 : after (exec (.f64 (-45875200)) State.reset) (·.dp.f64) = some 0xC045E00000000000#64 := by decide
theorem test_f64_extremes : after (exec (.f64 1) State.reset) (·.dp.f64) = some 0x3EB0000000000000#64 ∧
    after (exec (.f64 0) State.reset) (·.dp.f64) = some 0#64 := by decide
theorem test_convHum64 : after (exec (.convHum64 0x00001#20) State.reset) (·.dp.hum64) = some 0x3F19000000000000#64 ∧
    after (exec (.convHum64 0x66666#20) State.reset) (·.dp.hum64) = some 0x4043FFFEC0000000#64 := by decide
theorem test_convTemp64 : after (exec (.convTemp64 0x3FFFF#20) State.reset) (·.dp.temp64) = some 0xBF29000000000000#64 ∧
    after (exec (.convTemp64 0xCCCCD#20) State.reset) (·.dp.temp64) = some 0x405B8000A0000000#64 := by decide

/-! ### Table words, placed and run -/

theorem test_tableWord_trigger : decodeTableWord 32 0x70AC3300 = some (.wrTrigger .ok) := by decide
theorem test_tableWord_softreset : decodeTableWord 16 0x70BA = some (.wrSoftreset .ok) := by decide
theorem test_tableWord_status : decodeTableWord 16 0x7118 = some (.rdStatus (.ok 0x18#8)) := by decide
theorem test_tableWord_sample : decodeTableWord 56 0x711C8000080000 =
    some (.rdSample (.ok ⟨0x1C#8, 0x80#8, 0x00#8, 0x08#8, 0x00#8, 0x00#8⟩)) := by decide
theorem test_tableWord_read : decodeTableWord 32 0x80000003 = some (.read 0x10000000#29) := by decide
theorem test_placed_read : after (step (State.reset.withFetchWord 32 3)) words = some (0x00003101#32, 0#32, 0#32) := by
  decide
theorem test_placed_softreset : after (step (State.reset.withFetchWord 16 0x70BA)) (·.seq) = some .resetWait := by
  decide
theorem test_placed_sample :
    after (step (State.reset.withFetchWord 56 0x71000000000000)) (fun s => (s.seq, s.valid)) = some (.idle, true) :=
      by decide
theorem test_placed_f64 : after (step (State.reset.withFetchWord 64 0xC045E00000000000)) (·.dp.f64) =
    some 0xC045E00000000000#64 := by decide

/-- S-4, placed: INIT ends calibrated. -/
theorem test_placed_status :
    after (step (State.reset.withFetchWord 16 0x7108)) (fun s => (s.seq, s.calOk, s.devstat)) =
      some (.idle, true, 0x08#8) := by decide

/-! ### The wire and the timing -/

/-- R142: "a DATA_NACK on 0x33 means 0x00 was not sent". -/
theorem test_wire_dataNack : wireDataNack .wrTrigger 1 =
    [.start, .byte 0x70#8 true, .byte 0xAC#8 true, .byte 0x33#8 false, .stop] := by decide
theorem test_wire_addrNack : wireAddrNack .rdStatus = [.start, .byte 0x71#8 false, .stop] := by decide
/-- R65, R86: 0xBA goes out as 1011 1010. -/
theorem test_wire_bits : byteBits 0xBA#8 = [true, false, true, true, true, false, true, false] := by decide
/-- R238: ten calibration polls wait 20 ms and 90 ms, ten busy polls 80 ms and 90 ms. -/
theorem test_waits : calWaitsMs 10 = 20 + 90 ∧ busyWaitsMs 10 = 80 + 90 := by decide

/-! ### States that meet the invariant and the counts -/

theorem inv_calibrated : Inv calibrated :=
  ⟨⟨by decide, by decide, by decide, by decide, by decide, by decide, by decide, by decide⟩,
    ⟨.inl ⟨rfl, rfl⟩, .inl ⟨rfl, rfl⟩, by decide, by decide, trivial, by decide, by decide, by decide, by decide,
      by decide, by decide, by decide, ⟨rfl, rfl⟩⟩⟩

theorem inv_acceptanceStart : Inv acceptanceStart :=
  ⟨⟨by decide, by decide, by decide, by decide, by decide, by decide, by decide, by decide⟩,
    ⟨.inl ⟨rfl, rfl⟩, .inl ⟨rfl, rfl⟩, by decide, by decide, trivial, by decide, by decide, by decide, by decide,
      by decide, by decide, by decide, ⟨rfl, rfl, rfl, by decide, rfl, .inl rfl⟩⟩⟩

/-- CAL_RD of INIT, the reset write answered and the first status read in flight. -/
def inCalRd : State :=
  { at_ .calRd .init 1#4 0#4 with history := [{ frame := .wrSoftreset, result := .ok [] }], cmdTxns := 1 }

theorem inv_inCalRd : Inv inCalRd :=
  ⟨⟨by decide, by decide, by decide, by decide, by decide, by decide, by decide, by decide⟩,
    ⟨.inl ⟨rfl, rfl⟩, .inl ⟨rfl, rfl⟩, by decide, by decide, Nat.le_refl 1, by decide, by decide, by decide,
      by decide, by decide, by decide,
      by decide, ⟨rfl, rfl⟩⟩⟩

/-- CAL_WAIT of INIT after nine polls. -/
def inCalWait : State := at_ .calWait .init 9#4 0#4

theorem inv_inCalWait : Inv inCalWait :=
  ⟨⟨by decide, by decide, by decide, by decide, by decide, by decide, by decide, by decide⟩,
    ⟨.inl ⟨rfl, rfl⟩, .inl ⟨rfl, rfl⟩, by decide, by decide, (by decide : 1 ≤ 9 ∧ 9 ≤ 9), by decide, by decide,
      by decide, by decide, by decide,
      by decide, by decide, ⟨rfl, rfl⟩⟩⟩

/-- TRIG_WR of MEASURE. -/
def inTrigWr : State := at_ .trigWr .measure 0#4 0#4

theorem inv_inTrigWr : Inv inTrigWr :=
  ⟨⟨by decide, by decide, by decide, by decide, by decide, by decide, by decide, by decide⟩,
    ⟨.inl ⟨rfl, rfl⟩, .inl ⟨rfl, rfl⟩, by decide, by decide, rfl, by decide, by decide, by decide, by decide,
      by decide, by decide, by decide, ⟨rfl, rfl⟩⟩⟩

/-- DATA_RD of MEASURE after one ready poll. -/
def inDataRd : State := at_ .dataRd .measure 0#4 1#4

theorem inv_inDataRd : Inv inDataRd :=
  ⟨⟨by decide, by decide, by decide, by decide, by decide, by decide, by decide, by decide⟩,
    ⟨.inl ⟨rfl, rfl⟩, .inl ⟨rfl, rfl⟩, by decide, by decide, Nat.le_refl 1, by decide, by decide, by decide,
      by decide, by decide, by decide,
      by decide, ⟨rfl, rfl⟩⟩⟩

/-- IDLE after a READ whose sample was all zeros. -/
def afterRead : State :=
  { State.reset with
    done := true, valid := true, calOk := true, curCmd := some .read, calPolls := 1#4, busyPolls := 1#4, cmdTxns := 5,
    res := resultsOf 0#8 (decodeSample ⟨0#8, 0#8, 0#8, 0#8, 0#8, 0#8⟩)
    history := [{ frame := .rdSample, result := .ok [0#8, 0#8, 0#8, 0#8, 0#8, 0#8] },
      { frame := .rdStatus, result := .ok [0#8] }, { frame := .wrTrigger, result := .ok [] },
      { frame := .rdStatus, result := .ok [8#8] }, { frame := .wrSoftreset, result := .ok [] }] }

theorem inv_afterRead : Inv afterRead :=
  ⟨⟨by decide, by decide, by decide, by decide, by decide, by decide, by decide, by decide⟩,
    ⟨.inl ⟨rfl, rfl⟩, .inl ⟨rfl, rfl⟩, by decide, by decide, trivial, by decide, by decide, by decide, by decide,
      by decide, by decide, by decide, ⟨rfl, rfl⟩⟩⟩

/-- P7: INIT whose reset write is not acknowledged. -/
def resetNacked : State :=
  { State.reset with
    done := true, curCmd := some .init, err := { kind := .comm, cause := some .addrNack, phase := .resetWr },
    cmdTxns := 1, history := [{ frame := .wrSoftreset, result := .err .addrNack }] }

theorem inv_resetNacked : Inv resetNacked :=
  ⟨⟨by decide, by decide, by decide, by decide, by decide, by decide, by decide, by decide⟩,
    ⟨.inl ⟨rfl, rfl⟩, .inl ⟨rfl, rfl⟩, by decide, by decide, trivial, by decide, by decide, by decide, by decide,
      by decide, by decide, by decide, ⟨by decide, .inl ⟨rfl, rfl, rfl, .inl rfl⟩⟩⟩⟩

/-- P2 as a READ: ten status reads without bit 3. -/
def calTimedOut (cmd : Cmd) : State :=
  { State.reset with
    done := true, curCmd := some cmd, calPolls := 10#4, devstat := 0x10#8,
    err := { kind := .calFailed, cause := none, phase := .calRd }, cmdTxns := 11,
    history := List.replicate 10 { frame := .rdStatus, result := .ok [0x10#8] } ++
      [{ frame := .wrSoftreset, result := .ok [] }] }

theorem inv_calTimedOut : Inv (calTimedOut .init) ∧ Inv (calTimedOut .read) :=
  ⟨⟨⟨by decide, by decide, by decide, by decide, by decide, by decide, by decide, by decide⟩,
      ⟨.inl ⟨rfl, rfl⟩, .inl ⟨rfl, rfl⟩, by decide, by decide, trivial, by decide, by decide, by decide, by decide,
        by decide, by decide, by decide, ⟨rfl, rfl, rfl, rfl, rfl, .inl rfl⟩⟩⟩,
    ⟨⟨by decide, by decide, by decide, by decide, by decide, by decide, by decide, by decide⟩,
      ⟨.inl ⟨rfl, rfl⟩, .inl ⟨rfl, rfl⟩, by decide, by decide, trivial, by decide, by decide, by decide, by decide,
        by decide, by decide, by decide, ⟨rfl, rfl, rfl, rfl, rfl, .inr rfl⟩⟩⟩⟩

theorem counted_resetNacked : Counted resetNacked := ⟨by decide, by decide, by decide, by decide, by decide⟩
theorem counted_calTimedOut : Counted (calTimedOut .init) ∧ Counted (calTimedOut .read) :=
  ⟨⟨by decide, by decide, by decide, by decide, by decide⟩, ⟨by decide, by decide, by decide, by decide, by decide⟩⟩
theorem counted_calibrated : Counted calibrated := ⟨by decide, by decide, by decide, by decide, by decide⟩
theorem counted_acceptanceStart : Counted acceptanceStart := ⟨by decide, by decide, by decide, by decide, by decide⟩
theorem counted_inCalRd : Counted inCalRd := ⟨by decide, by decide, by decide, by decide, by decide⟩
theorem counted_afterRead : Counted afterRead := ⟨by decide, by decide, by decide, by decide, by decide⟩

/-! ### Every statement's hypotheses are met -/

/-- The invariant holds with the answer received. -/
theorem inv_got {s : State} {f : Frame} {a : Answer} (h : Inv s) (hf : s.seq.frame = some f)
    (ha : answerListed f a = true) : Inv (got a s) :=
  ⟨⟨h.spec.busy_iff, h.spec.busy_not_done, h.spec.valid_means, h.spec.err_means, h.spec.busy_means,
      h.spec.results_clear, h.spec.polls_bounded, h.spec.busy_polls_calibrated⟩,
    ⟨.inr ⟨rfl, f, a, hf, rfl, ha⟩, h.consistent.timer, h.consistent.init_part, h.consistent.measure_part,
      h.consistent.polls, h.consistent.data_ready, h.consistent.init_polls, h.consistent.measure_polls,
      h.consistent.cal_started, h.consistent.valid_polls, h.consistent.decoded, h.consistent.calibrated,
      h.consistent.error⟩⟩

/-- The invariant holds with the wait expired. -/
theorem inv_expire {s : State} (h : Inv s) (hd : s.seq.delay ≠ none) : Inv (expire s) :=
  ⟨⟨h.spec.busy_iff, h.spec.busy_not_done, h.spec.valid_means, h.spec.err_means, h.spec.busy_means,
      h.spec.results_clear, h.spec.polls_bounded, h.spec.busy_polls_calibrated⟩,
    ⟨h.consistent.transaction, .inr ⟨rfl, hd, rfl⟩, h.consistent.init_part, h.consistent.measure_part,
      h.consistent.polls, h.consistent.data_ready, h.consistent.init_polls, h.consistent.measure_polls,
      h.consistent.cal_started, h.consistent.valid_polls, h.consistent.decoded, h.consistent.calibrated,
      h.consistent.error⟩⟩

/-- The answer of a sample read that is not all zeros. -/
def goodSample : Answer := .ok [0x1C#8, 0x80#8, 0x00#8, 0x08#8, 0x00#8, 0x00#8]

/-- `s` with one event to come. -/
def sched (e : Event) (s : State) : State := { s with schedule := [e] }

/-- One for each command; the ignored bits at both ends of their range. -/
theorem witness_AcceptedCommandWrite :
    ((0xFFFFFFF9#32).extractLsb' 0 3 = cmdCode (some .init) ∧ State.reset.seq = .idle ∧
      (Cmd.init = .measure → State.reset.calOk = true)) ∧
    ((2#32).extractLsb' 0 3 = cmdCode (some .measure) ∧ calibrated.seq = .idle ∧
      (Cmd.measure = .measure → calibrated.calOk = true)) ∧
    ((0x80000003#32).extractLsb' 0 3 = cmdCode (some .read) ∧ State.reset.seq = .idle ∧
      (Cmd.read = .measure → State.reset.calOk = true)) ∧
    (calibrated.seq = .idle ∧ calibrated.calOk = true) := by decide

theorem witness_RejectedCommandWrite :
    ((1#32).extractLsb' 0 3 ≠ 0#3 ∧ inCalRd.seq ≠ .idle) ∧
    ((4#32).extractLsb' 0 3 ≠ 0#3 ∧ 4 ≤ ((4#32).extractLsb' 0 3).toNat) ∧
    ((7#32).extractLsb' 0 3 ≠ 0#3 ∧ 4 ≤ ((7#32).extractLsb' 0 3).toNat) ∧
    ((2#32).extractLsb' 0 3 ≠ 0#3 ∧ (2#32).extractLsb' 0 3 = 2#3 ∧ State.reset.calOk = false) := by decide

theorem witness_NopChangesNothing :
    (sched (.hostWrite 0x00#6 4 0xFFFFFFF8#32) inCalRd).schedule = [.hostWrite 0x00#6 4 0xFFFFFFF8#32] ∧
      (0xFFFFFFF8#32).extractLsb' 0 3 = 0#3 := by decide

theorem witness_ReservedCodesAreRejected : (4#32).getLsbD 2 = true ∧ (0xFFFFFFFF#32).getLsbD 2 = true := by decide

theorem witness_CommandWordBitsAboveCmdIgnored :
    (1#32).extractLsb' 0 3 = (0xFFFFFFF9#32).extractLsb' 0 3 ∧ (1#32) ≠ 0xFFFFFFF9#32 := by decide

theorem witness_StatusWriteOneToClear :
    (sched (.hostWrite 0x04#6 4 6#32) acceptanceStart).schedule = [.hostWrite 0x04#6 4 6#32] := rfl

theorem witness_IntEnWriteSetsEnables :
    (sched (.hostWrite 0x38#6 4 1#32) calibrated).schedule = [.hostWrite 0x38#6 4 1#32] := rfl

theorem witness_ReadOnlyWritesIgnored :
    ∀ off ∈ [0x08#6, 0x34#6, 0x3C#6], off.toNat % 4 = 0 ∧ off ≠ 0x00#6 ∧ off ≠ 0x04#6 ∧ off ≠ 0x38#6 := by decide

theorem witness_HostReadReturnsRegister :
    (sched (.hostRead Reg.error.offset 4) inCalRd).schedule = [.hostRead Reg.error.offset 4] ∧
      Inv (sched (.hostRead Reg.error.offset 4) inCalRd) ∧
      (sched (.hostRead Reg.error.offset 4) inCalRd).busy = true :=
  ⟨rfl, inv_schedule inv_inCalRd _, rfl⟩

/-- A narrow and an unaligned access at the window's ends, and the defined ones there. -/
theorem witness_UndefinedAccessFaults :
    ¬(2 = 4 ∧ (0x00#6).toNat % 4 = 0) ∧ ¬(4 = 4 ∧ (0x3F#6).toNat % 4 = 0) ∧ (4 = 4 ∧ (0x00#6).toNat % 4 = 0) ∧
      (4 = 4 ∧ (0x3C#6).toNat % 4 = 0) := by decide

theorem witness_WindowIsLittleEndian : 0 < 4 ∧ 0 < 8 ∧ 3 < 4 ∧ 7 < 8 := by decide

theorem witness_SoftResetAnswered :
    (got (.ok []) (at_ .resetWr .init 0#4 0#4)).seq = .resetWr ∧
      (got (.ok []) (at_ .resetWr .init 0#4 0#4)).answer = some (.ok []) ∧
      (got (.err .busError) (at_ .resetWr .init 0#4 0#4)).answer = some (.err .busError) := by decide

theorem witness_TriggerAnswered :
    (got (.ok []) inTrigWr).seq = .trigWr ∧ (got (.ok []) inTrigWr).answer = some (.ok []) ∧
      (got (.err .dataNack) inTrigWr).answer = some (.err .dataNack) := by decide

/-- INIT and READ, below the budget and at it, and a failed read. -/
theorem witness_CalibrationReadAnswered :
    ((got (.ok [0x08#8]) inCalRd).seq = .calRd ∧ (got (.ok [0x08#8]) inCalRd).answer = some (.ok [0x08#8]) ∧
      (0x08#8).getLsbD 3 = true ∧ (got (.ok [0x08#8]) inCalRd).curCmd = some .init) ∧
    ((got (.ok [0xF7#8]) inCalRd).answer = some (.ok [0xF7#8]) ∧ (0xF7#8).getLsbD 3 = false ∧
      (got (.ok [0xF7#8]) inCalRd).calPolls.toNat < 10) ∧
    ((got (.ok [0xF7#8]) (at_ .calRd .read 10#4 0#4)).seq = .calRd ∧
      (got (.ok [0xF7#8]) (at_ .calRd .read 10#4 0#4)).answer = some (.ok [0xF7#8]) ∧
      (got (.ok [0xF7#8]) (at_ .calRd .read 10#4 0#4)).curCmd = some .read ∧
      ¬(got (.ok [0xF7#8]) (at_ .calRd .read 10#4 0#4)).calPolls.toNat < 10) ∧
    (got (.err .addrNack) inCalRd).answer = some (.err .addrNack) := by decide

theorem witness_BusyReadAnswered :
    ((got (.ok [0x7F#8]) (at_ .busyRd .measure 0#4 9#4)).seq = .busyRd ∧
      (got (.ok [0x7F#8]) (at_ .busyRd .measure 0#4 9#4)).answer = some (.ok [0x7F#8]) ∧ (0x7F#8).getLsbD 7 = false) ∧
    ((got (.ok [0x80#8]) (at_ .busyRd .measure 0#4 9#4)).answer = some (.ok [0x80#8]) ∧ (0x80#8).getLsbD 7 = true ∧
      (got (.ok [0x80#8]) (at_ .busyRd .measure 0#4 9#4)).busyPolls.toNat < 10) ∧
    ((got (.ok [0x80#8]) (at_ .busyRd .measure 0#4 10#4)).seq = .busyRd ∧
      (got (.ok [0x80#8]) (at_ .busyRd .measure 0#4 10#4)).answer = some (.ok [0x80#8]) ∧
      ¬(got (.ok [0x80#8]) (at_ .busyRd .measure 0#4 10#4)).busyPolls.toNat < 10) ∧
    (got (.err .busError) (at_ .busyRd .measure 0#4 1#4)).answer = some (.err .busError) := by decide

theorem witness_SampleReadAnswered :
    (got goodSample inDataRd).seq = .dataRd ∧
      (got goodSample inDataRd).answer = some (.ok (Sample.mk 0x1C#8 0x80#8 0x00#8 0x08#8 0x00#8 0x00#8).bytes) ∧
      (got (.err .addrNack) inDataRd).answer = some (.err .addrNack) := by decide

/-- `Ok` to a read, DATA_NACK to a write. -/
theorem witness_OracleAnswersTransactionInFlight :
    ((sched (.busAnswer goodSample) inDataRd).schedule = [.busAnswer goodSample] ∧
      (sched (.busAnswer goodSample) inDataRd).inFlight = some .rdSample ∧
      [0x1C#8, 0x80#8, 0x00#8, 0x08#8, 0x00#8, 0x00#8].length = deviceBytes .rdSample) ∧
    ((sched (.busAnswer (.err .dataNack)) inTrigWr).schedule = [.busAnswer (.err .dataNack)] ∧
      (sched (.busAnswer (.err .dataNack)) inTrigWr).inFlight = some .wrTrigger) := by decide

/-- The wrong state, no answer, another answer; and the three agents with nothing to do. -/
theorem witness_AnswerNeedsItsTransaction :
    (State.reset.seq ≠ .resetWr ∧ inTrigWr.seq ≠ .dataRd ∧ inTrigWr.seq ≠ .calRd ∧ inTrigWr.seq ≠ .busyRd) ∧
    (inTrigWr.seq = .trigWr ∧ inTrigWr.answer ≠ some (answerOfWrite .ok) ∧
      (got (.ok []) inTrigWr).answer ≠ some (answerOfWrite (.err .dataNack))) ∧
    ((sched (.busAnswer goodSample) calibrated).schedule = [.busAnswer goodSample] ∧
      (sched (.busAnswer goodSample) calibrated).inFlight = none) ∧
    ((sched .timerExpires inTrigWr).schedule = [.timerExpires] ∧ (sched .timerExpires inTrigWr).wait = none) ∧
    ((sched .sequencer inTrigWr).schedule = [.sequencer] ∧ (sched .sequencer inTrigWr).answer = none ∧
      (sched .sequencer inTrigWr).expired = false) := by decide

/-- Each wait state, with its wait pending and with it expired. -/
theorem witness_WaitExpiryStartsRead : ∀ q ∈ [SeqState.resetWait, .calWait, .trigWait, .busyWait],
    ((sched .timerExpires (at_ q .read 1#4 1#4)).schedule = [.timerExpires] ∧
      (sched .timerExpires (at_ q .read 1#4 1#4)).wait ≠ none) ∧
    ((sched .sequencer (expire (at_ q .read 1#4 1#4))).schedule = [.sequencer] ∧
      (sched .sequencer (expire (at_ q .read 1#4 1#4))).expired = true ∧
      (sched .sequencer (expire (at_ q .read 1#4 1#4))).seq = q) := by
  decide

/-- The step that accepts INIT, the one that ends CAL_RD, the one that ends CAL_WAIT, a block reset, an answer and an
expiry. -/
theorem witness_SequencerMovesOnlyByItsAction :
    (∃ t, Inv (sched (.hostWrite 0x00#6 4 1#32) calibrated) ∧
      step (sched (.hostWrite 0x00#6 4 1#32) calibrated) = .next t ∧ t.seq ≠ .idle) ∧
    (∃ t, Inv (sched .sequencer (got (.ok [8#8]) inCalRd)) ∧
      step (sched .sequencer (got (.ok [8#8]) inCalRd)) = .next t ∧ t.seq ≠ .calRd) ∧
    (∃ t, Inv (sched .sequencer (expire inCalWait)) ∧ step (sched .sequencer (expire inCalWait)) = .next t ∧
      t.seq ≠ .calWait) ∧
    (∃ t, Inv (sched .blockReset inCalWait) ∧ step (sched .blockReset inCalWait) = .next t ∧ t.seq ≠ .calWait) ∧
    (∃ t, Inv (sched (.busAnswer (.ok [8#8])) inCalRd) ∧ step (sched (.busAnswer (.ok [8#8])) inCalRd) = .next t ∧
      inCalRd.answer = none ∧ t.answer ≠ none) ∧
    (∃ t, Inv (sched .timerExpires inCalWait) ∧ step (sched .timerExpires inCalWait) = .next t ∧
      inCalWait.expired = false ∧ t.expired = true) :=
  ⟨⟨_, inv_schedule inv_calibrated _, rfl, by decide⟩,
    ⟨_, inv_schedule (inv_got inv_inCalRd rfl rfl) _, rfl, by decide⟩,
    ⟨_, inv_schedule (inv_expire inv_inCalWait (by decide)) _, rfl, by decide⟩,
    ⟨_, inv_schedule inv_inCalWait _, rfl, by decide⟩, ⟨_, inv_schedule inv_inCalRd _, rfl, rfl, by decide⟩,
    ⟨_, inv_schedule inv_inCalWait _, rfl, rfl, rfl⟩⟩

theorem witness_SequencerEdges : ∃ t, step (sched .sequencer (got (.ok []) inTrigWr)) = .next t ∧ t.seq = .trigWait :=
  ⟨_, rfl, rfl⟩

/-- P9: a READ written while the reset write is never answered. -/
theorem witness_UnansweredTransactionHolds :
    ∃ t, Inv (sched (.hostWrite 0x00#6 4 3#32) inTrigWr) ∧ (sched (.hostWrite 0x00#6 4 3#32) inTrigWr).inFlight ≠ none ∧
      step (sched (.hostWrite 0x00#6 4 3#32) inTrigWr) = .next t ∧ (3#32).extractLsb' 0 3 ≠ 0#3 ∧
      (∀ rest, [Event.hostWrite 0x00#6 4 3#32] ≠ .blockReset :: rest) ∧
      (∀ a rest, [Event.hostWrite 0x00#6 4 3#32] ≠ .busAnswer a :: rest) :=
  ⟨_, inv_schedule inv_inTrigWr _, by decide, rfl, by decide, by simp, by simp⟩

/-- The whole behaviour: the host writes READ again and again. -/
theorem witness_UnansweredTransactionHolds_behaviour :
    ∃ (st : Nat → State) (ev : Nat → Event), Behaviour st ev ∧ Inv (st 0) ∧ (st 0).inFlight ≠ none ∧
      ∀ n, ev n ≠ .blockReset ∧ ∀ a, ev n ≠ .busAnswer a :=
  ⟨fun n => if n = 0 then inTrigWr else { inTrigWr with rej := true, reply := some .writeDone },
    fun _ => .hostWrite 0x00#6 4 3#32, fun n => by cases n <;> rfl, inv_inTrigWr, by decide, by simp⟩

/-- A fair behaviour with a wait pending at its start: the timer expires it, the sequencer starts the status read, and the
oracle never answers. -/
theorem witness_PendingWaitEndsUnderFairness :
    ∃ (st : Nat → State) (ev : Nat → Event), Behaviour st ev ∧ TimerFair st ev ∧ SequencerFair st ev ∧ Inv (st 0) ∧
      (st 0).wait ≠ none := by
  refine ⟨fun n => if n = 0 then inCalWait else if n = 1 then expire inCalWait else startCalRead (expire inCalWait),
    fun n => if n = 0 then .timerExpires else .sequencer, fun n => ?_, fun n h => ?_, fun n _ => ?_, inv_inCalWait,
    by decide⟩
  · match n with
    | 0 => rfl
    | 1 => rfl
    | _ + 2 => rfl
  · exact absurd (h (n + 2) (by omega)) (by simp [timerEnabled, startCalRead, enter, SeqState.delay])
  · exact ⟨n + 1, by omega, rfl⟩

/-- No failed poll before the success, and nine. -/
theorem witness_CalibrationSucceedsAtNthPoll :
    State.reset.seq = .idle ∧ ([] : List Byte).length < 10 ∧ (List.replicate 9 (0xF7#8)).length < 10 ∧
      (∀ b ∈ List.replicate 9 (0xF7#8), b.getLsbD 3 = false) ∧ (0x08#8).getLsbD 3 = true := by decide

theorem witness_TenFailedPollsEndTheCommand :
    (State.reset.seq = .idle ∧ (List.replicate 9 (0x10#8)).length = 9 ∧
      (∀ b ∈ List.replicate 9 (0x10#8), b.getLsbD 3 = false) ∧ (0x10#8).getLsbD 3 = false) ∧
    (calibrated.seq = .idle ∧ calibrated.calOk = true ∧ (List.replicate 9 (0x88#8)).length = 9 ∧
      (∀ b ∈ List.replicate 9 (0x88#8), b.getLsbD 7 = true) ∧ (0x88#8).getLsbD 7 = true) := by decide

theorem witness_ReadRunsInitThenMeasure :
    State.reset.seq = .idle ∧ (0x08#8).getLsbD 3 = true ∧ (0x1C#8).getLsbD 7 = false := by decide

theorem witness_BinaryEncodingIsExact :
    (2 ^ 52 - 1 : Int).natAbs < 2 ^ 52 ∧ (-(2 ^ 52 - 1) : Int).natAbs < 2 ^ 52 ∧ (0 : Int).natAbs < 2 ^ 52 := by decide

theorem witness_ConversionsAreMonotone : (0#20).toNat < (0xFFFFF#20).toNat ∧
    (0xFFFFF#20).toNat = (0xFFFFE#20).toNat + 1 := by decide

/-- The end points of both ranges, with their nearest integer, and a tie of each, with both. -/
theorem witness_NearestCodeRoundTrip :
    ((0 : ℚ) ≤ 0 ∧ (0 : ℚ) ≤ 100 ∧ IsNearest 0 (0 * 2 ^ 20 / 100) ∧ IsNearest (2 ^ 20) (100 * 2 ^ 20 / 100)) ∧
    ((-50 : ℚ) ≤ -50 ∧ (-50 : ℚ) ≤ 150 ∧ IsNearest 0 ((-50 + 50) * 2 ^ 20 / 200) ∧
      IsNearest (2 ^ 20) ((150 + 50) * 2 ^ 20 / 200)) ∧
    ((0 : ℚ) ≤ 25 / 2 ^ 19 ∧ (25 / 2 ^ 19 : ℚ) ≤ 100 ∧ IsNearest 0 (25 / 2 ^ 19 * 2 ^ 20 / 100) ∧
      IsNearest 1 (25 / 2 ^ 19 * 2 ^ 20 / 100)) ∧
    ((-50 : ℚ) ≤ 50 / 2 ^ 19 - 50 ∧ (50 / 2 ^ 19 - 50 : ℚ) ≤ 150 ∧
      IsNearest 0 ((50 / 2 ^ 19 - 50 + 50) * 2 ^ 20 / 200) ∧ IsNearest 1 ((50 / 2 ^ 19 - 50 + 50) * 2 ^ 20 / 200)) := by
  norm_num [IsNearest, abs_le]

/-- A commit changes the results, and so does the acceptance of the next command. -/
theorem witness_ResultsChangeOnlyAtCommitOrAcceptance :
    (∃ t, step (sched .sequencer (got goodSample inDataRd)) = .next t ∧ t.res ≠ inDataRd.res) ∧
    (∃ t, step (sched (.hostWrite 0x00#6 4 3#32) afterRead) = .next t ∧ t.res ≠ afterRead.res) :=
  ⟨⟨_, rfl, by decide⟩, ⟨_, rfl, by decide⟩⟩

theorem witness_ErrorChangesOnlyAtFailureOrAcceptance :
    (∃ t, step (sched .sequencer (got (.err .busError) inTrigWr)) = .next t ∧ t.err ≠ inTrigWr.err) ∧
    (∃ t, step (sched (.hostWrite 0x00#6 4 2#32) acceptanceStart) = .next t ∧ t.err ≠ acceptanceStart.err) :=
  ⟨⟨_, rfl, by decide⟩, ⟨_, rfl, by decide⟩⟩

theorem witness_CalibrationFlagRule :
    (∃ t, step (sched .sequencer (got (.ok [8#8]) inCalRd)) = .next t ∧ inCalRd.calOk = false ∧ t.calOk = true) ∧
    (∃ t, step (sched (.hostWrite 0x00#6 4 1#32) calibrated) = .next t ∧ calibrated.calOk = true ∧ t.calOk = false) ∧
    (∃ t, step (sched (.hostWrite 0x00#6 4 2#32) calibrated) = .next t ∧ calibrated.seq = .idle ∧ t.seq = .trigWr) :=
  ⟨⟨_, rfl, rfl, rfl⟩, ⟨_, rfl, rfl, rfl⟩, ⟨_, rfl, rfl, rfl⟩⟩

theorem witness_DoneFlagRule :
    (∃ t, step (sched .sequencer (got goodSample inDataRd)) = .next t ∧ inDataRd.done = false ∧ t.done = true ∧
      inDataRd.seq ≠ .idle ∧ t.seq = .idle) ∧
    (∃ t, step (sched (.hostWrite 0x04#6 4 2#32) afterRead) = .next t ∧ afterRead.done = true ∧ t.done = false) :=
  ⟨⟨_, rfl, rfl, rfl, by decide, rfl⟩, ⟨_, rfl, rfl, rfl⟩⟩

theorem witness_RejectFlagRule :
    (∃ t, step (sched (.hostWrite 0x00#6 4 7#32) calibrated) = .next t ∧ calibrated.rej = false ∧ t.rej = true) ∧
    (∃ t, step (sched (.hostWrite 0x04#6 4 4#32) acceptanceStart) = .next t ∧ acceptanceStart.rej = true ∧
      t.rej = false) :=
  ⟨⟨_, rfl, rfl, rfl⟩, ⟨_, rfl, rfl, rfl⟩⟩

theorem witness_ValidFlagRule :
    (∃ t, step (sched .sequencer (got goodSample inDataRd)) = .next t ∧ inDataRd.valid = false ∧ t.valid = true) ∧
    (∃ t, step (sched (.hostWrite 0x00#6 4 2#32) afterRead) = .next t ∧ afterRead.valid = true ∧ t.valid = false) :=
  ⟨⟨_, rfl, rfl, rfl⟩, ⟨_, rfl, rfl, rfl⟩⟩

theorem witness_DeviceStatusRule :
    (∃ t, step (sched .sequencer (got (.ok [0xF7#8]) inCalRd)) = .next t ∧ t.devstat ≠ inCalRd.devstat) ∧
    (∃ t, step (sched (.hostWrite 0x00#6 4 3#32) calibrated) = .next t ∧ t.devstat ≠ calibrated.devstat) :=
  ⟨⟨_, rfl, by decide⟩, ⟨_, rfl, by decide⟩⟩

theorem witness_SampleReadFollowsReadyStatus :
    ∃ t, step (sched .sequencer (got (.ok [0x7F#8]) (at_ .busyRd .measure 0#4 10#4))) = .next t ∧
      (at_ .busyRd .measure 0#4 10#4).seq ≠ .dataRd ∧ t.seq = .dataRd :=
  ⟨_, rfl, by decide, rfl⟩

theorem witness_EnablesAndCommandCodeRule :
    (∃ t, step (sched (.hostWrite 0x38#6 4 3#32) inCalRd) = .next t ∧ t.doneIe ≠ inCalRd.doneIe) ∧
    (∃ t, step (sched (.hostWrite 0x00#6 4 3#32) calibrated) = .next t ∧ t.curCmd ≠ calibrated.curCmd) ∧
    (∀ off v rest, [Event.hostWrite off 4 v] ≠ .blockReset :: rest) :=
  ⟨⟨_, rfl, by decide⟩, ⟨_, rfl, by decide⟩, by simp⟩

theorem witness_PollCountersRule :
    ∃ t, Inv (sched .sequencer (expire inCalWait)) ∧ step (sched .sequencer (expire inCalWait)) = .next t ∧
      t.calPolls = 10#4 :=
  ⟨_, inv_schedule (inv_expire inv_inCalWait (by decide)) _, rfl, rfl⟩

/-- An answer and an abandonment. -/
theorem witness_HistoryGrowsByTransactionInFlight :
    (∃ t, step (sched (.busAnswer (.err .dataNack)) inTrigWr) = .next t ∧ t.history ≠ inTrigWr.history) ∧
    (∃ t, step (sched .blockReset inTrigWr) = .next t ∧ t.history ≠ inTrigWr.history) :=
  ⟨⟨_, rfl, by decide⟩, ⟨_, rfl, by decide⟩⟩

theorem witness_CommunicationFailureIsPrecise :
    Inv (sched .sequencer (got (.err .dataNack) inTrigWr)) ∧
      (sched .sequencer (got (.err .dataNack) inTrigWr)).schedule = [.sequencer] ∧
      (sched .sequencer (got (.err .dataNack) inTrigWr)).answer = some (.err .dataNack) :=
  ⟨inv_schedule (inv_got inv_inTrigWr rfl rfl) _, rfl, rfl⟩

theorem witness_AnswersOffTheListRefused :
    (sched (.busAnswer (.err .dataNack)) inCalRd).inFlight = some .rdStatus ∧
      (sched (.busAnswer (.err .dataNack)) inCalRd).schedule = [.busAnswer (.err .dataNack)] ∧
      (sched (.busAnswer (.ok [])) inCalRd).schedule = [.busAnswer (.ok [])] ∧
      ([] : List Byte).length ≠ deviceBytes .rdStatus := by decide

theorem witness_InterruptFollowsFlags :
    (∃ t, step (sched .sequencer (got goodSample { inDataRd with doneIe := true })) = .next t ∧ inDataRd.seq ≠ .idle ∧
      t.seq = .idle ∧ (∀ rest, [Event.sequencer] ≠ .blockReset :: rest)) ∧
    (∃ t, step (sched (.hostWrite 0x00#6 4 1#32) { inDataRd with rejIe := true }) = .next t ∧
      (1#32).extractLsb' 0 3 ≠ 0#3) ∧
    (∃ t, step (sched (.hostWrite 0x04#6 4 6#32) acceptanceStart) = .next t ∧ (6#32).getLsbD 1 = true ∧
      (6#32).getLsbD 2 = true) :=
  ⟨⟨_, rfl, by decide, rfl, by simp⟩, ⟨_, rfl, by decide⟩, ⟨_, rfl, by decide, by decide⟩⟩

/-- INT_EN beside the step of each agent; and MEASURE beside the step that ends a MEASURE. -/
theorem witness_HostWriteBesideSequencerStep :
    (∃ t, runSteps 2 { got goodSample inDataRd with schedule := [.hostWrite 0x38#6 4 1#32, .sequencer] } = .next t ∧
      irq t = true) ∧
    (∃ t, runSteps 2 { inDataRd with schedule := [.hostWrite 0x38#6 4 1#32, .busAnswer goodSample] } = .next t ∧
      t.doneIe = true) ∧
    (∃ t, runSteps 2 { inCalWait with schedule := [.hostWrite 0x38#6 4 1#32, .timerExpires] } = .next t ∧
      t.doneIe = true) ∧
    (∃ t, step { got goodSample inDataRd with schedule := [.sequencer] } = .next t ∧ inDataRd.seq ≠ .idle ∧
      t.seq = .idle ∧ (2#32).extractLsb' 0 3 = cmdCode (some .measure) ∧ t.calOk = true) :=
  ⟨⟨_, rfl, rfl⟩, ⟨_, rfl, rfl⟩, ⟨_, rfl, rfl⟩, ⟨_, rfl, by decide, rfl, by decide, rfl⟩⟩

/-- In IDLE, and with a transaction in flight. -/
theorem witness_BlockResetInAnyState :
    (sched .blockReset calibrated).schedule = [.blockReset] ∧ (sched .blockReset calibrated).inFlight = none ∧
      (sched .blockReset inTrigWr).schedule = [.blockReset] ∧
      (sched .blockReset inTrigWr).inFlight = some .wrTrigger := by decide

/-- The sequencer's step that ends INIT in success. -/
theorem witness_StepKeepsInvariant :
    ∃ t, Inv (sched .sequencer (got (.ok [8#8]) inCalRd)) ∧
      step (sched .sequencer (got (.ok [8#8]) inCalRd)) = .next t ∧ t.calOk = true :=
  ⟨_, inv_schedule (inv_got inv_inCalRd rfl rfl) _, rfl, rfl⟩

/-- The oracle's step that ends the status read. -/
theorem witness_StepKeepsTransactionCounts :
    ∃ t, Inv (sched (.busAnswer (.ok [8#8])) inCalRd) ∧ Counted (sched (.busAnswer (.ok [8#8])) inCalRd) ∧
      step (sched (.busAnswer (.ok [8#8])) inCalRd) = .next t ∧ t.cmdTxns = 2 :=
  ⟨_, inv_schedule inv_inCalRd _, counted_schedule counted_inCalRd _, rfl, rfl⟩

/-- INIT, MEASURE and READ ended. -/
theorem witness_EndedCommandTransactions :
    (Inv calibrated ∧ Counted calibrated ∧ calibrated.seq = .idle ∧ calibrated.curCmd = some .init) ∧
    (Inv acceptanceStart ∧ Counted acceptanceStart ∧ acceptanceStart.seq = .idle ∧
      acceptanceStart.curCmd = some .measure ∧ acceptanceStart.err.kind = .stillBusy) ∧
    (Inv afterRead ∧ Counted afterRead ∧ afterRead.seq = .idle ∧ afterRead.curCmd = some .read ∧
      afterRead.valid = true) :=
  ⟨⟨inv_calibrated, counted_calibrated, rfl, rfl⟩, ⟨inv_acceptanceStart, counted_acceptanceStart, rfl, rfl, rfl⟩,
    ⟨inv_afterRead, counted_afterRead, rfl, rfl, rfl⟩⟩

/-- INIT ended by its reset write, INIT and READ ended by the calibration budget. -/
theorem witness_EndedCommandTransactions_failed :
    (Inv resetNacked ∧ Counted resetNacked ∧ resetNacked.seq = .idle ∧ resetNacked.curCmd = some .init ∧
      resetNacked.err.phase = .resetWr) ∧
    (Inv (calTimedOut .init) ∧ Counted (calTimedOut .init) ∧ (calTimedOut .init).curCmd = some .init ∧
      (calTimedOut .init).err.kind = .calFailed) ∧
    (Inv (calTimedOut .read) ∧ Counted (calTimedOut .read) ∧ (calTimedOut .read).curCmd = some .read ∧
      (calTimedOut .read).calOk = false) :=
  ⟨⟨inv_resetNacked, counted_resetNacked, rfl, rfl, rfl⟩, ⟨inv_calTimedOut.1, counted_calTimedOut.1, rfl, rfl⟩,
    ⟨inv_calTimedOut.2, counted_calTimedOut.2, rfl, rfl⟩⟩

theorem witness_DecodeOfEncode : (Instr.f64 (-(2 ^ 52 - 1))).wellFormed = true ∧
    (Instr.ackRej false true 0x1FFFFFFF#29).wellFormed = true ∧
    (Instr.rdSample (.err .busError)).wellFormed = true := by decide

theorem witness_EncodeOfDecode : decode .i2cRead [3#8, 0x71#8, 0#8] = .ok (.rdStatus (.err .busError)) := by decide

/-- A word written to each of the three registers, an answered transaction and a datapath operation. -/
theorem witness_StepRunsDecodedInstruction :
    (sched (.hostWrite 0x04#6 4 6#32) calibrated).schedule = [.hostWrite 0x04#6 4 6#32] ∧
      decode .hcmd (leBytes 1#32) = .ok (.init 0#29) ∧ decode .hstw (leBytes 6#32) = .ok (.ackDone true false 0#29) ∧
      decode .hiew (leBytes 3#32) = .ok (.wrIntEn true true 0#30) ∧
      (sched .sequencer (got goodSample inDataRd)).schedule = [.sequencer] ∧
      (got goodSample inDataRd).seq.frame = some .rdSample ∧ (got goodSample inDataRd).answer = some goodSample ∧
      decode (frameFormat .rdSample) (answerBytes .rdSample goodSample) =
        .ok (.rdSample (.ok ⟨0x1C#8, 0x80#8, 0x00#8, 0x08#8, 0x00#8, 0x00#8⟩)) ∧
      decode (.datapath .convHum) [0#8, 0#8, 1#8] = .ok (.convHum 1#20) := by decide

end Sys2Proof.Tests
end

/-! ### The state after reset: R21, R52 -/

namespace Sys2Proof.Machine

/-- PARAM is hardwired: its word is the same in every state (R45). -/
theorem readReg_param (s : State) : readReg .param s = 0x00000A38#32 := rfl

theorem statusWord_reset : statusWord State.reset = 0#32 := by decide

theorem errorWord_zero : errorWord ErrorReg.zero = 0#32 := by decide

theorem pollsWord_reset : pollsWord State.reset = 0#32 := by decide

theorem intEnWord_reset : intEnWord State.reset = 0#32 := by decide

/-- A word packed from several fields is zero by its lemma above; any other register is a single field, zero at reset. -/
theorem readReg_reset_of_ne_param {r : Reg} (hr : r ≠ .param) : readReg r State.reset = 0#32 := by
  cases r
  case status => exact statusWord_reset
  case error => exact errorWord_zero
  case polls => exact pollsWord_reset
  case intEn => exact intEnWord_reset
  case param => exact absurd rfl hr
  all_goals rfl

theorem readReg_reset (r : Reg) : readReg r State.reset = if r = .param then 0x00000A38#32 else 0#32 := by
  split
  case isTrue hr => rw [hr, readReg_param]
  case isFalse hr => exact readReg_reset_of_ne_param hr

/-- Settles O50: the registers by `readReg_reset`, the sequencer's fields and `irq` from the definition of the reset
state. -/
theorem resetRegisterValues : Obligations.ResetRegisterValues :=
  ⟨readReg_reset, rfl, rfl, rfl, rfl⟩

end Sys2Proof.Machine

/-! ### The host's writes: R100 to R106, R111 to R113 -/

namespace Sys2Proof.Machine

/-- A defined host write runs the write's effect with the access completed on the host bus (R110, R193). -/
theorem step_hostWrite {s : State} {off : BitVec 6} {v : Word} {rest : List Event}
    (h : s.schedule = .hostWrite off 4 v :: rest) (ha : off.toNat % 4 = 0) :
    step s = writeEffect off v (written { s with schedule := rest }) := by
  rw [step_cons h]
  exact if_pos ((accessDefined_iff off 4).2 ⟨rfl, ha⟩)

theorem writeEffect_ctrl (v : Word) (s : State) : writeEffect 0x00#6 v s = exec (decodeCommand v) s :=
  runBytes_hcmd v s

theorem writeEffect_intEn (v : Word) (s : State) :
    writeEffect 0x38#6 v s = .next { s with doneIe := v.getLsbD 0, rejIe := v.getLsbD 1 } :=
  runBytes_hiew v s

/-! ### A CTRL write, in each of its three outcomes -/

section

variable {s : State} {v : Word} {rest : List Event}

/-- A CTRL write runs the command its word decodes to. -/
theorem step_ctrlWrite (h : s.schedule = .hostWrite 0x00#6 4 v :: rest) :
    step s = exec (decodeCommand v) (written { s with schedule := rest }) := by
  rw [step_hostWrite h rfl, writeEffect_ctrl]

theorem step_ctrlWrite_of_nop (h : s.schedule = .hostWrite 0x00#6 4 v :: rest) (hv : v.extractLsb' 0 3 = 0#3) :
    step s = .next (written { s with schedule := rest }) := by
  rw [step_ctrlWrite h, exec_decodeCommand, if_pos hv]

theorem step_ctrlWrite_of_rejected (h : s.schedule = .hostWrite 0x00#6 4 v :: rest) (hv : v.extractLsb' 0 3 ≠ 0#3)
    (hr : s.seq ≠ .idle ∨ 4 ≤ (v.extractLsb' 0 3).toNat ∨ (v.extractLsb' 0 3 = 2#3 ∧ s.calOk = false)) :
    step s = .next (reject (written { s with schedule := rest })) := by
  rw [step_ctrlWrite h, exec_decodeCommand, if_neg hv]
  exact if_pos hr

theorem step_ctrlWrite_of_accepted {c : Cmd} (h : s.schedule = .hostWrite 0x00#6 4 v :: rest)
    (hv : v.extractLsb' 0 3 = cmdCode (some c)) (hs : s.seq = .idle) (hc : c = .measure → s.calOk = true) :
    step s = .next (accept c (written { s with schedule := rest })) := by
  rw [step_ctrlWrite h, exec_decodeCommand, hv]
  cases c with
  | init => simp [cmdCode, hs]
  | measure => simp [cmdCode, hs, hc rfl]
  | read => simp [cmdCode, hs]

end

/-- A word with bit 2 set carries one of the reserved codes 4 to 7 (R106). -/
theorem four_le_code_of_bit2 {v : Word} (h : v.getLsbD 2 = true) : 4 ≤ (v.extractLsb' 0 3).toNat := by
  apply Nat.ge_two_pow_of_testBit (i := 2)
  rw [BitVec.testBit_toNat, BitVec.getLsbD_extractLsb']
  simpa using h

/-- Acceptance, each field written out (R100). -/
theorem accept_eq (c : Cmd) (s : State) :
    accept c s = { s with
      busy := true, done := false, valid := false, calOk := (if c = .measure then s.calOk else false),
      curCmd := some c, err := ErrorReg.zero, calPolls := 0#4, busyPolls := 0#4, devstat := 0#8, res := Results.zero,
      seq := (if c = .measure then .trigWr else .resetWr),
      inFlight := some (if c = .measure then .wrTrigger else .wrSoftreset), answer := none, wait := none,
      expired := false, cmdTxns := 0 } := by
  cases c <;> rfl

/-! ### INIT, MEASURE and READ, accepted and turned away -/

theorem exec_init_of_idle (ign : BitVec 29) {s : State} (hs : s.seq = .idle) :
    exec (.init ign) s = .next (accept .init s) := if_pos hs

theorem exec_read_of_idle (ign : BitVec 29) {s : State} (hs : s.seq = .idle) :
    exec (.read ign) s = .next (accept .read s) := if_pos hs

theorem exec_measure_of_idle (ign : BitVec 29) {s : State} (hs : s.seq = .idle) (hc : s.calOk = true) :
    exec (.measure ign) s = .next (accept .measure s) := if_pos ⟨hs, hc⟩

theorem exec_init_of_busy (ign : BitVec 29) {s : State} (hs : s.seq ≠ .idle) :
    exec (.init ign) s = .next (reject s) := if_neg hs

theorem exec_read_of_busy (ign : BitVec 29) {s : State} (hs : s.seq ≠ .idle) :
    exec (.read ign) s = .next (reject s) := if_neg hs

theorem exec_measure_of_turnedAway (ign : BitVec 29) {s : State} (h : s.seq ≠ .idle ∨ s.calOk = false) :
    exec (.measure ign) s = .next (reject s) := by
  refine if_neg fun ⟨hs, hc⟩ => ?_
  rcases h with h | h
  · exact h hs
  · rw [hc] at h; cases h

/-! ### The statements about writes -/

/-- Settles O1: the word's code is a command's, so it runs `accept`, whose fields `accept_eq` writes out. -/
theorem acceptedCommandWrite : Obligations.AcceptedCommandWrite := by
  refine ⟨fun s v rest c h hv hs hc => ?_, fun ign s hs =>
    ⟨exec_init_of_idle ign hs, exec_read_of_idle ign hs, exec_measure_of_idle ign hs⟩⟩
  rw [step_ctrlWrite_of_accepted h hv hs hc, accept_eq]

/-- Settles O2: each reason of R101 sends the word, and the instruction, to `reject`. -/
theorem rejectedCommandWrite : Obligations.RejectedCommandWrite :=
  ⟨fun _ _ _ h hv hr => step_ctrlWrite_of_rejected h hv hr,
    fun ign _ => ⟨fun hs => ⟨exec_init_of_busy ign hs, exec_read_of_busy ign hs⟩, exec_measure_of_turnedAway ign⟩⟩

/-- Settles O3: a word with code 0 decodes to NOP, and the only trace of its write is the host bus's response. -/
theorem nopChangesNothing : Obligations.NopChangesNothing :=
  ⟨fun _ _ => rfl, fun _ _ _ h hv => step_ctrlWrite_of_nop h hv⟩

/-- Settles O4: a word with bit 2 set has a code of at least 4, which is a reason for rejection in every state. -/
theorem reservedCodesAreRejected : Obligations.ReservedCodesAreRejected := by
  refine ⟨fun ign s => ⟨rfl, rfl, rfl, rfl⟩, fun s v rest h hb => ?_⟩
  have hcode := four_le_code_of_bit2 hb
  have hnop : v.extractLsb' 0 3 ≠ 0#3 := fun h0 => by simp [h0] at hcode
  exact step_ctrlWrite_of_rejected h hnop (.inr (.inl hcode))

/-- Settles O6: a STATUS write is `clearFlags` of the word's bits 1 and 2, and `irq` is computed from the state it leaves. -/
theorem statusWriteOneToClear : Obligations.StatusWriteOneToClear := by
  refine ⟨fun s v rest h => ⟨clearFlags (v.getLsbD 1) (v.getLsbD 2) (written { s with schedule := rest }), ?_, rfl, rfl⟩,
    fun b ign0 ign s => ⟨?_, ?_⟩⟩
  · rw [step_hostWrite h rfl, writeEffect_status]
  · simp [exec, execAckDone, clearFlags]
  · simp [exec, execAckRej, clearFlags]

/-- Settles O7: an INT_EN write sets the two enables from bits 0 and 1, and `irq` is computed from the state it leaves. -/
theorem intEnWriteSetsEnables : Obligations.IntEnWriteSetsEnables := by
  refine ⟨fun _ _ _ _ => rfl, fun s v rest h => ⟨_, ?_, rfl, rfl⟩⟩
  rw [step_hostWrite h rfl, writeEffect_intEn]

/-- Settles O8: of the offsets of defined accesses only those of CTRL, STATUS and INT_EN have a write effect. -/
theorem readOnlyWritesIgnored : Obligations.ReadOnlyWritesIgnored := by
  intro s off v rest h ha h0 h4 h38
  rw [step_hostWrite h ha]
  rcases off_cases off ha with hoff | hoff | hoff | ⟨-, -, -, hw⟩
  · exact absurd hoff h0
  · exact absurd hoff h4
  · exact absurd hoff h38
  · exact hw v _

end Sys2Proof.Machine

/-! ### The host's reads: R114 -/

namespace Sys2Proof.Machine

theorem offset_aligned (r : Reg) : r.offset.toNat % 4 = 0 := by
  cases r <;> rfl

/-- The register at a register's offset is that register (R21). -/
theorem regAt_offset (r : Reg) : regAt r.offset = r := by
  cases r <;> rfl

/-- A defined host read answers the register's word and changes nothing else (R64, R114). -/
theorem step_hostRead {s : State} {r : Reg} {rest : List Event} (h : s.schedule = .hostRead r.offset 4 :: rest) :
    step s = .next { s with schedule := rest, reply := some (.readData (readReg r s)) } := by
  have hread : readReg r { s with schedule := rest } = readReg r s := by cases r <;> rfl
  rw [step_cons h]
  simp only [runEvent, hostRead, (accessDefined_iff r.offset 4).2 ⟨rfl, offset_aligned r⟩, if_true, regAt_offset, hread]

/-- A byte widened to a host word has zeros in bits 31:8. -/
theorem setWidth_byte (b : Byte) : b.setWidth 32 = 0#24 ++ b := BitVec.setWidth_eq_append (by decide)

/-- A code widened to a host word has zeros in bits 31:20. -/
theorem setWidth_code (c : BitVec 20) : c.setWidth 32 = 0#12 ++ c := BitVec.setWidth_eq_append (by decide)

theorem errFlag_eq_false_iff (s : State) : errFlag s = false ↔ s.err.kind = .noError := by
  cases h : s.err.kind <;> simp [errFlag, kindCode, h]

/-- Without an error the whole ERROR register is zero (R191). -/
theorem err_eq_zero {s : State} (hr : errorRecorded s) (hk : s.err.kind = .noError) : s.err = ErrorReg.zero := by
  obtain ⟨hcause, hphase⟩ : s.err.cause = none ∧ s.err.phase = .idle := by
    simpa [errorRecorded, hk] using hr
  calc s.err = ⟨s.err.kind, s.err.cause, s.err.phase⟩ := rfl
    _ = ErrorReg.zero := by rw [hk, hcause, hphase]; rfl

/-- While a command runs no error is recorded and the result registers are clear (R51, R191). -/
theorem err_and_res_zero_of_busy {s : State} (hi : Inv s) (hb : s.busy = true) :
    s.err = ErrorReg.zero ∧ s.res = Results.zero := by
  obtain ⟨hvalid, herr⟩ := hi.spec.busy_means hb
  exact ⟨err_eq_zero hi.consistent.error ((errFlag_eq_false_iff s).1 herr), hi.spec.results_clear hvalid⟩

/-- The registers that read zero while BUSY = 1 (R114): ERROR and the result registers. -/
def clearWhileBusy : List Reg :=
  [.error, .rawstat, .fieldHi, .fieldLo, .humCode, .tempCode, .humF64Lo, .humF64Hi, .tempF64Lo, .tempF64Hi]

theorem readReg_eq_zero_of_busy {s : State} {r : Reg} (hi : Inv s) (hb : s.busy = true) (hr : r ∈ clearWhileBusy) :
    readReg r s = 0#32 := by
  obtain ⟨herr, hres⟩ := err_and_res_zero_of_busy hi hb
  have hmem : ∀ q ∈ clearWhileBusy, readReg q s = 0#32 := by
    simp [clearWhileBusy, readReg, herr, hres, errorWord_zero, Results.zero]
  exact hmem r hr

/-- Settles O9: the read by `step_hostRead`, the words by their layouts, and the zeros of a busy block by the invariant. -/
theorem hostReadReturnsRegister : Obligations.HostReadReturnsRegister := fun s _ _ h =>
  ⟨step_hostRead h, rfl, rfl, readReg_param s, rfl, rfl, setWidth_byte _, setWidth_byte _, setWidth_byte _, rfl,
    setWidth_code _, setWidth_code _, rfl, rfl, rfl, rfl, rfl, readReg_eq_zero_of_busy⟩

end Sys2Proof.Machine

/-! ### The sequencer's steps on an answered transaction: R135 to R148 -/

namespace Sys2Proof.Machine

section

variable {s : State}

theorem exec_wrSoftreset_ok (hs : s.seq = .resetWr) (ha : s.answer = some (.ok [])) :
    exec (.wrSoftreset .ok) s = .next (enter .resetWait s) := if_pos (answeredWith_iff.2 ⟨hs, ha⟩)

theorem exec_wrSoftreset_err {c : Cause} (hs : s.seq = .resetWr) (ha : s.answer = some (.err c)) :
    exec (.wrSoftreset (.err c)) s = .next (fail .comm (some c) .resetWr s) := if_pos (answeredWith_iff.2 ⟨hs, ha⟩)

theorem exec_wrTrigger_ok (hs : s.seq = .trigWr) (ha : s.answer = some (.ok [])) :
    exec (.wrTrigger .ok) s = .next (enter .trigWait s) := if_pos (answeredWith_iff.2 ⟨hs, ha⟩)

theorem exec_wrTrigger_err {c : Cause} (hs : s.seq = .trigWr) (ha : s.answer = some (.err c)) :
    exec (.wrTrigger (.err c)) s = .next (fail .comm (some c) .trigWr s) := if_pos (answeredWith_iff.2 ⟨hs, ha⟩)

theorem exec_rdStatus_of_calRd {a : StatusAnswer} (hs : s.seq = .calRd) (ha : s.answer = some (answerOfStatus a)) :
    exec (.rdStatus a) s = .next (calReadStep a s) := if_pos (answeredWith_iff.2 ⟨hs, ha⟩)

theorem exec_rdStatus_of_busyRd {a : StatusAnswer} (hs : s.seq = .busyRd) (ha : s.answer = some (answerOfStatus a)) :
    exec (.rdStatus a) s = .next (busyReadStep a s) := by
  have hcal : ¬ answeredWith .calRd (answerOfStatus a) s = true := by simp [answeredWith_iff, hs]
  exact (if_neg hcal).trans (if_pos (answeredWith_iff.2 ⟨hs, ha⟩))

theorem exec_rdSample_ok {d : Sample} (hs : s.seq = .dataRd) (ha : s.answer = some (.ok d.bytes)) :
    exec (.rdSample (.ok d)) s = .next (finish (commit d s)) := if_pos (answeredWith_iff.2 ⟨hs, ha⟩)

theorem exec_rdSample_err {c : Cause} (hs : s.seq = .dataRd) (ha : s.answer = some (.err c)) :
    exec (.rdSample (.err c)) s = .next (fail .comm (some c) .dataRd (forgetSample s)) :=
  if_pos (answeredWith_iff.2 ⟨hs, ha⟩)

end

/-- Settles O12: the answered reset write enters RESET_WAIT, whose delay is 20 ms, or ends the command by `fail`. -/
theorem softResetAnswered : Obligations.SoftResetAnswered :=
  fun _ hs => ⟨exec_wrSoftreset_ok hs, fun _ => exec_wrSoftreset_err hs⟩

/-- Settles O13: the answered trigger write enters TRIG_WAIT, whose delay is 80 ms, or ends the command by `fail`. -/
theorem triggerAnswered : Obligations.TriggerAnswered :=
  fun _ hs => ⟨exec_wrTrigger_ok hs, fun _ => exec_wrTrigger_err hs⟩

/-- Settles O14: on a byte the step is one of the cases of `calReadStep_ok`, each meeting the premises of at most
one clause; on an `Err` it is `fail`. -/
theorem calibrationReadAnswered : Obligations.CalibrationReadAnswered := by
  refine fun s hs => ⟨fun st ha => ?_, fun c ha => exec_rdStatus_of_calRd hs ha⟩
  rw [exec_rdStatus_of_calRd (a := .ok st) hs ha]
  rcases calReadStep_ok (st := st) (s := s) rfl with
    ⟨hb, hc, ht⟩ | ⟨hb, hc, ht⟩ | ⟨hb, hi, hr, ht⟩ | ⟨hb, hp, ht⟩ | ⟨hb, hp, ht⟩
  · rw [hb, ht]; simp [hc]
  · rw [hb, ht]; simp [hc]
  · rw [hb]; simp [hi, hr]
  · rw [hb, ht]; simp [hp]
  · rw [hb, ht]; simp [hp]

/-- Settles O15: on a byte the step is one of the cases of `busyReadStep_ok`, each meeting the premises of at most
one clause; on an `Err` it is `fail`. -/
theorem busyReadAnswered : Obligations.BusyReadAnswered := by
  refine fun s hs => ⟨fun st ha => ?_, fun c ha => exec_rdStatus_of_busyRd hs ha⟩
  rw [exec_rdStatus_of_busyRd (a := .ok st) hs ha]
  rcases busyReadStep_ok (st := st) (s := s) rfl with ⟨hb, ht⟩ | ⟨hb, hp, ht⟩ | ⟨hb, hp, ht⟩
  · rw [hb, ht]; simp
  · rw [hb, ht]; simp [hp]
  · rw [hb, ht]; simp [hp]

end Sys2Proof.Machine

/-! ### The fields and the value of a binary64 word: R177 -/

namespace Sys2Proof.Machine

section

variable {m : Int}

/-- The normal form of R177: `A = |m|` has its highest bit at `p`, so scaled by `2^(52-p)` it is `2^52` and a
fraction. -/
theorem natAbs_scaled_bounds (h0 : m ≠ 0) (hm : m.natAbs < 2 ^ 52) :
    m.natAbs.log2 < 52 ∧ 2 ^ 52 ≤ m.natAbs * 2 ^ (52 - m.natAbs.log2) ∧
      m.natAbs * 2 ^ (52 - m.natAbs.log2) < 2 ^ 53 := by
  have hA : m.natAbs ≠ 0 := Int.natAbs_ne_zero.2 h0
  have hp : m.natAbs.log2 < 52 := (Nat.log2_lt hA).2 hm
  refine ⟨hp, ?_, ?_⟩
  · calc 2 ^ 52 = 2 ^ m.natAbs.log2 * 2 ^ (52 - m.natAbs.log2) := by rw [← pow_add]; congr 1; omega
      _ ≤ m.natAbs * 2 ^ (52 - m.natAbs.log2) := Nat.mul_le_mul_right _ (Nat.log2_self_le hA)
  · calc m.natAbs * 2 ^ (52 - m.natAbs.log2)
        < 2 ^ (m.natAbs.log2 + 1) * 2 ^ (52 - m.natAbs.log2) :=
          Nat.mul_lt_mul_of_pos_right Nat.lt_log2_self (by positivity)
      _ = 2 ^ 53 := by rw [← pow_add]; congr 1; omega

/-- The sign bit. -/
theorem f64_sign (h0 : m ≠ 0) : (f64 m).getLsbD 63 = decide (m < 0) := by
  rw [f64, if_neg h0, BitVec.getLsbD_append, if_neg (by decide), BitVec.getLsbD_append, if_neg (by decide)]
  simp

/-- The exponent field, `p - 20 + 1023`. -/
theorem f64_exponent (h0 : m ≠ 0) (hm : m.natAbs < 2 ^ 52) :
    ((f64 m).extractLsb' 52 11).toNat = m.natAbs.log2 + 1003 := by
  obtain ⟨hp, -, -⟩ := natAbs_scaled_bounds h0 hm
  rw [f64, if_neg h0, BitVec.extractLsb'_append_eq_of_le le_rfl, BitVec.extractLsb'_append_eq_right, BitVec.toNat_ofNat]
  omega

/-- The fraction field: `A` scaled to 53 bits, less its leading bit. -/
theorem f64_fraction (h0 : m ≠ 0) (hm : m.natAbs < 2 ^ 52) :
    ((f64 m).extractLsb' 0 52).toNat + 2 ^ 52 = m.natAbs * 2 ^ (52 - m.natAbs.log2) := by
  obtain ⟨-, hlow, hhigh⟩ := natAbs_scaled_bounds h0 hm
  rw [f64, if_neg h0, BitVec.extractLsb'_append_eq_right, BitVec.toNat_ofNat]
  omega

theorem f64_ne_zero (h0 : m ≠ 0) (hm : m.natAbs < 2 ^ 52) : f64 m ≠ 0#64 := by
  intro h
  have hexp := f64_exponent h0 hm
  rw [h] at hexp
  simp at hexp

end

/-- F64 is exact: the word stands for `m / 2^20` (R177). -/
theorem binary64Value_f64 {m : Int} (hm : m.natAbs < 2 ^ 52) : binary64Value (f64 m) = m / 2 ^ 20 := by
  by_cases h0 : m = 0
  · subst h0; simp [binary64Value, f64]
  obtain ⟨hp, -, -⟩ := natAbs_scaled_bounds h0 hm
  have hfrac : 1 + (((f64 m).extractLsb' 0 52).toNat : ℚ) / 2 ^ 52 = m.natAbs / 2 ^ m.natAbs.log2 := by
    have h : (((f64 m).extractLsb' 0 52).toNat : ℚ) + 2 ^ 52 = m.natAbs * 2 ^ (52 - m.natAbs.log2) := by
      exact_mod_cast f64_fraction h0 hm
    rw [pow_sub₀ _ two_ne_zero hp.le] at h
    field_simp
    field_simp at h
    linarith
  have hpow : (2 : ℚ) ^ (((m.natAbs.log2 + 1003 : ℕ) : ℤ) - 1023) = 2 ^ m.natAbs.log2 / 2 ^ 20 := by
    rw [show ((m.natAbs.log2 + 1003 : ℕ) : ℤ) - 1023 = (m.natAbs.log2 : ℤ) - (20 : ℕ) by omega,
      zpow_sub₀ two_ne_zero, zpow_natCast, zpow_natCast]
  have hsign : (if m < 0 then -1 else 1) * (m.natAbs : ℚ) = m := by
    rw [Nat.cast_natAbs]
    split
    case isTrue h => rw [abs_of_neg h]; simp
    case isFalse h => rw [abs_of_nonneg (not_lt.1 h), one_mul]
  simp only [binary64Value, f64_ne_zero h0 hm, f64_sign h0, if_false, decide_eq_true_eq, hfrac,
    f64_exponent h0 hm, hpow]
  rw [← hsign]
  field_simp

end Sys2Proof.Machine

/-! ### Codes and converted words as numbers: R170 to R178 -/

namespace Sys2Proof.Machine

theorem convHum64_eq (hc : BitVec 20) : convHum64 hc = f64 (hc.toNat * 100) := rfl

theorem convTemp64_eq (tc : BitVec 20) : convTemp64 tc = f64 (tc.toNat * 200 - 50 * 2 ^ 20) := rfl

/-- The humidity word stands for the exact humidity (R174, R178). -/
theorem binary64Value_convHum64 (hc : BitVec 20) : binary64Value (convHum64 hc) = hc.toNat * 100 / 2 ^ 20 := by
  have hlt := hc.isLt
  rw [convHum64_eq, binary64Value_f64 (by omega)]
  push_cast
  rfl

/-- The temperature word stands for the exact temperature (R175, R178). -/
theorem binary64Value_convTemp64 (tc : BitVec 20) :
    binary64Value (convTemp64 tc) = tc.toNat * 200 / 2 ^ 20 - 50 := by
  have hlt := tc.isLt
  rw [convTemp64_eq, binary64Value_f64 (by omega)]
  push_cast
  ring

theorem toNat_append_eq_add {m n : Nat} (x : BitVec m) (y : BitVec n) :
    (x ++ y).toNat = x.toNat * 2 ^ n + y.toNat := by
  rw [BitVec.toNat_append, ← Nat.shiftLeft_add_eq_or_of_lt y.isLt, Nat.shiftLeft_eq]

theorem toNat_extractHum (f40 : BitVec 40) : (extractHum f40).toNat = f40.toNat / 2 ^ 20 := by
  have hlt := f40.isLt
  rw [extractHum, BitVec.extractLsb'_toNat, Nat.shiftRight_eq_div_pow]
  omega

theorem toNat_extractTemp (f40 : BitVec 40) : (extractTemp f40).toNat = f40.toNat % 2 ^ 20 := by
  rw [extractTemp, BitVec.extractLsb'_toNat, Nat.shiftRight_zero]

section

variable (d1 d2 d3 d4 d5 : Byte)

theorem toNat_extract : (extract d1 d2 d3 d4 d5).toNat =
    d1.toNat * 2 ^ 32 + d2.toNat * 2 ^ 24 + d3.toNat * 2 ^ 16 + d4.toNat * 2 ^ 8 + d5.toNat := by
  simp only [extract, toNat_append_eq_add]
  omega

/-- The source's humidity formula on the bytes (R172). -/
theorem toNat_extractHum_extract : (extractHum (extract d1 d2 d3 d4 d5)).toNat =
    d1.toNat * 2 ^ 12 + d2.toNat * 2 ^ 4 + d3.toNat / 2 ^ 4 := by
  rw [toNat_extractHum, toNat_extract]
  omega

/-- The source's temperature formula on the bytes (R173). -/
theorem toNat_extractTemp_extract : (extractTemp (extract d1 d2 d3 d4 d5)).toNat =
    d3.toNat % 2 ^ 4 * 2 ^ 16 + d4.toNat * 2 ^ 8 + d5.toNat := by
  rw [toNat_extractTemp, toNat_extract]
  omega

/-- FIELD_HI is the field's first byte (R39). -/
theorem extract_hi : (extract d1 d2 d3 d4 d5).extractLsb' 32 8 = d1 := by
  apply BitVec.eq_of_toNat_eq
  rw [BitVec.extractLsb'_toNat, toNat_extract, Nat.shiftRight_eq_div_pow]
  omega

/-- FIELD_LO is the field's other four bytes (R39). -/
theorem extract_lo : (extract d1 d2 d3 d4 d5).extractLsb' 0 32 = d2 ++ d3 ++ d4 ++ d5 := by
  apply BitVec.eq_of_toNat_eq
  rw [BitVec.extractLsb'_toNat, toNat_extract, Nat.shiftRight_zero]
  simp only [toNat_append_eq_add]
  omega

end

/-! ### The commit: R148 -/

/-- The result registers of a commit, from the sample's bytes. -/
theorem resultsOf_decodeSample (d : Sample) :
    resultsOf d.d0 (decodeSample d) =
      { rawstat := d.d0, fieldHi := d.d1, fieldLo := d.d2 ++ d.d3 ++ d.d4 ++ d.d5,
        humCode := (decodeSample d).hc, tempCode := (decodeSample d).tc,
        humF64Lo := (convHum64 (decodeSample d).hc).extractLsb' 0 32,
        humF64Hi := (convHum64 (decodeSample d).hc).extractLsb' 32 32,
        tempF64Lo := (convTemp64 (decodeSample d).tc).extractLsb' 0 32,
        tempF64Hi := (convTemp64 (decodeSample d).tc).extractLsb' 32 32 } := by
  rw [← extract_hi d.d1 d.d2 d.d3 d.d4 d.d5, ← extract_lo d.d1 d.d2 d.d3 d.d4 d.d5]
  rfl

/-- Settles O16: the commit's latches are `decodeSample`'s, whose codes and words the lemmas above give as numbers; a
failed read is `fail` on a free capture buffer. -/
theorem sampleReadAnswered : Obligations.SampleReadAnswered := by
  refine fun s hs => ⟨fun d ha => ?_, fun c ha => ⟨Config.freeSample s.draws, exec_rdSample_err hs ha⟩⟩
  refine ⟨decodeSample d, convHum64 (decodeSample d).hc, convTemp64 (decodeSample d).tc, (decodeSample d).hc,
    (decodeSample d).tc, toNat_extractHum_extract .., toNat_extractTemp_extract .., convHum64_eq _,
    binary64Value_convHum64 _, convTemp64_eq _, binary64Value_convTemp64 _, ?_⟩
  rw [exec_rdSample_ok hs ha, ← resultsOf_decodeSample]
  rfl

end Sys2Proof.Machine

/-! ### Nearest codes: R182 -/

namespace Sys2Proof.Machine

/-- The decoded humidity (R174). -/
theorem dyadic_convHum (hc : BitVec 20) : dyadic (convHum hc) = hc.toNat * 100 / 2 ^ 20 := by
  simp [dyadic, convHum, Config.humScale]

/-- The decoded temperature (R175). -/
theorem dyadic_convTemp (tc : BitVec 20) : dyadic (convTemp tc) = tc.toNat * 200 / 2 ^ 20 - 50 := by
  norm_num [dyadic, convTemp, Config.tempScale, Config.tempOffset, Config.codeRange, sub_div]

section

variable {n : Int} {x : ℚ}

theorem IsNearest.nonneg (hn : IsNearest n x) (hx : 0 ≤ x) : 0 ≤ n := by
  obtain ⟨hlow, -⟩ := abs_le.1 hn
  have hgt : ((-1 : Int) : ℚ) < n := by push_cast; linarith
  have := Int.cast_lt.1 hgt
  omega

/-- Saturation keeps a nearest integer within 1 of `x`: where it takes effect, `0xFFFFF` is no further above `x` than the
nearest integer, and `x` is no further above `0xFFFFF` than `2^20`. -/
theorem IsNearest.abs_min_sub_le (hn : IsNearest n x) (hx : x ≤ 2 ^ 20) : |((min n 0xFFFFF : Int) : ℚ) - x| ≤ 1 := by
  rcases le_total n 0xFFFFF with h | h
  · rw [min_eq_left h]
    exact hn.trans (by norm_num)
  · rw [min_eq_right h, abs_le]
    obtain ⟨-, hhigh⟩ := abs_le.1 hn
    have hcast : ((0xFFFFF : Int) : ℚ) ≤ n := Int.cast_le.2 h
    push_cast at hcast ⊢
    constructor <;> linarith

/-- A nearest integer of a value in code units, saturated, is a code within one unit of the value. -/
theorem IsNearest.exists_code (hn : IsNearest n x) (h0 : 0 ≤ x) (hx : x ≤ 2 ^ 20) :
    ∃ c : BitVec 20, (c.toNat : Int) = min n 0xFFFFF ∧ |(c.toNat : ℚ) - x| ≤ 1 := by
  have hnonneg := hn.nonneg h0
  have hcode : ((BitVec.ofNat 20 (min n 0xFFFFF).toNat).toNat : Int) = min n 0xFFFFF := by
    rw [BitVec.toNat_ofNat]
    omega
  refine ⟨_, hcode, ?_⟩
  rw [← Int.cast_natCast, hcode]
  exact hn.abs_min_sub_le hx

end

/-- An error of at most one code unit decodes to one of at most one code step. -/
theorem abs_step_mul_le {step e : ℚ} (hstep : 0 ≤ step) (he : |e| ≤ 1) : |step * e| ≤ step := by
  rw [abs_mul, abs_of_nonneg hstep]
  exact mul_le_of_le_one_right hstep he

theorem humidity_roundTrip {h : ℚ} {n : Int} (h0 : 0 ≤ h) (h100 : h ≤ 100) (hn : IsNearest n (h * 2 ^ 20 / 100)) :
    ∃ hc : BitVec 20, (hc.toNat : Int) = min n 0xFFFFF ∧ |dyadic (convHum hc) - h| ≤ 100 / 2 ^ 20 := by
  obtain ⟨hc, hcode, herr⟩ := hn.exists_code (by positivity) (by linarith)
  have hdiff : dyadic (convHum hc) - h = 100 / 2 ^ 20 * (hc.toNat - h * 2 ^ 20 / 100) := by
    rw [dyadic_convHum]
    ring
  exact ⟨hc, hcode, hdiff ▸ abs_step_mul_le (by norm_num) herr⟩

theorem temperature_roundTrip {t : ℚ} {n : Int} (h50 : -50 ≤ t) (h150 : t ≤ 150)
    (hn : IsNearest n ((t + 50) * 2 ^ 20 / 200)) :
    ∃ tc : BitVec 20, (tc.toNat : Int) = min n 0xFFFFF ∧ |dyadic (convTemp tc) - t| ≤ 200 / 2 ^ 20 := by
  obtain ⟨tc, hcode, herr⟩ := hn.exists_code (by linarith) (by linarith)
  have hdiff : dyadic (convTemp tc) - t = 200 / 2 ^ 20 * (tc.toNat - (t + 50) * 2 ^ 20 / 200) := by
    rw [dyadic_convTemp]
    ring
  exact ⟨tc, hcode, hdiff ▸ abs_step_mul_le (by norm_num) herr⟩

/-- Settles O34: the test encoder's code is the nearest integer that `nearest` picks, saturated; that every nearest integer
decodes back within one step is the round trip of each quantity. -/
theorem nearestCodeRoundTrip : Obligations.NearestCodeRoundTrip :=
  ⟨fun _ h0 h100 => ⟨⟨_, isNearest_nearest _, rfl⟩, fun _ => humidity_roundTrip h0 h100⟩,
    fun _ h50 h150 => ⟨⟨_, isNearest_nearest _, rfl⟩, fun _ => temperature_roundTrip h50 h150⟩⟩

end Sys2Proof.Machine

/-! ### The invariant at reset, and what it does not speak of: R51, R52 -/

namespace Sys2Proof.Machine

/-- The invariant and the counts hold at reset; each field is a closed fact about the reset state. -/
theorem inv_reset : Inv State.reset :=
  ⟨⟨by decide, by decide, by decide, by decide, by decide, by decide, by decide, by decide⟩,
    ⟨.inl ⟨rfl, rfl⟩, .inl ⟨rfl, rfl⟩, by decide, by decide, trivial, by decide, by decide, by decide, by decide,
      by decide, by decide, by decide, ⟨rfl, rfl⟩⟩⟩

theorem counted_reset : Counted State.reset := ⟨by decide, by decide, by decide, by decide, by decide⟩

/-- Settles O52: the two lemmas above. -/
theorem resetMeetsInvariant : Obligations.ResetMeetsInvariant := ⟨inv_reset, counted_reset⟩

/-- The invariant speaks neither of the fields below nor, but for clearing it, of DONE. -/
theorem inv_of_unmentioned {s : State} (h : Inv s) {done : Bool} (hd : done = true → s.done = true)
    (rej doneIe rejIe : Bool) (sample : Sample) (dp : Datapath) (schedule : List Event) (history : List Txn)
    (cmdTxns : Nat) (reply : Option HostReply) (draws : Nat) :
    Inv { s with
      done := done, rej := rej, doneIe := doneIe, rejIe := rejIe, sample := sample, dp := dp, schedule := schedule,
      history := history, cmdTxns := cmdTxns, reply := reply, draws := draws } := by
  obtain ⟨hs, hc⟩ := h
  exact ⟨⟨hs.busy_iff, fun ⟨hb, hd'⟩ => hs.busy_not_done ⟨hb, hd hd'⟩, hs.valid_means, hs.err_means, hs.busy_means,
      hs.results_clear, hs.polls_bounded, hs.busy_polls_calibrated⟩,
    ⟨hc.transaction, hc.timer, hc.init_part, hc.measure_part, hc.polls, hc.data_ready, hc.init_polls, hc.measure_polls,
      hc.cal_started, hc.valid_polls, hc.decoded, hc.calibrated, hc.error⟩⟩

/-- A block reset is the reset state but for fields the invariant does not speak of (R220). -/
theorem inv_blockReset (s : State) : Inv (blockReset s) :=
  inv_of_unmentioned inv_reset id _ _ _ _ _ _ _ _ _ _

end Sys2Proof.Machine

/-! ### The oracle's and the timer's steps keep the invariant: R13, R49, R48 -/

namespace Sys2Proof.Machine

section

variable {s : State}

theorem inFlight_eq_frame (h : Inv s) (hf : s.inFlight ≠ none) : s.inFlight = s.seq.frame ∧ s.answer = none := by
  rcases h.consistent.transaction with hp | ⟨hn, -⟩
  · exact hp
  · exact absurd hn hf

/-- Once the answer is there, nothing is in flight, and the answer is one the closed lists have (R49, R131, R132). -/
theorem answered_of_inv (h : Inv s) {a : Answer} (ha : s.answer = some a) :
    s.inFlight = none ∧ ∃ f, s.seq.frame = some f ∧ answerListed f a = true := by
  rcases h.consistent.transaction with ⟨-, hn⟩ | ⟨hn, f, b, hf, hb, hl⟩
  · rw [ha] at hn; cases hn
  · rw [ha] at hb; cases hb; exact ⟨hn, f, hf, hl⟩

theorem wait_eq_delay (h : Inv s) (hw : s.wait ≠ none) : s.wait = s.seq.delay ∧ s.expired = false := by
  rcases h.consistent.timer with hp | ⟨hn, -⟩
  · exact hp
  · exact absurd hn hw

theorem inv_receive {f : Frame} {a : Answer} (h : Inv s) (hf : s.inFlight = some f) (ha : answerListed f a = true) :
    Inv (receive f a s) := by
  have hframe : s.seq.frame = some f := by rw [← (inFlight_eq_frame h (by simp [hf])).1, hf]
  exact inv_of_unmentioned (Tests.inv_got h hframe ha) id _ _ _ _ _ _ _ _ _ _

theorem inv_timerExpires (h : Inv s) (hw : s.wait ≠ none) : Inv (expire s) :=
  Tests.inv_expire h ((wait_eq_delay h hw).1 ▸ hw)

end

end Sys2Proof.Machine

/-! ### The sequencer's steps keep the invariant: R130 to R148, R192 -/

namespace Sys2Proof.Machine

/-- What holds of the registers in every state but IDLE, and does not depend on which one it is (R51, R100). -/
structure Running (s : State) : Prop where
  busy : s.busy = true
  done : s.done = false
  valid : s.valid = false
  err : s.err = ErrorReg.zero
  res : s.res = Results.zero
  polls_bounded : s.calPolls.toNat ≤ 10 ∧ s.busyPolls.toNat ≤ 10
  init_polls : s.curCmd = some .init → s.busyPolls.toNat = 0
  measure_polls : s.curCmd = some .measure → s.calPolls.toNat = 0

theorem errFlag_of_err_zero {s : State} (h : s.err = ErrorReg.zero) : errFlag s = false := by
  rw [errFlag_eq_false_iff, h]; rfl

theorem errorRecorded_of_err_zero {s : State} (h : s.err = ErrorReg.zero) : errorRecorded s := by
  simp [errorRecorded, h, ErrorReg.zero]

theorem running_of_inv {s : State} (h : Inv s) (hs : s.seq ≠ .idle) : Running s := by
  have hb := h.spec.busy_iff.2 hs
  obtain ⟨herr, hres⟩ := err_and_res_zero_of_busy h hb
  exact ⟨hb, Bool.eq_false_of_not_eq_true fun hd => h.spec.busy_not_done ⟨hb, hd⟩, (h.spec.busy_means hb).1, herr, hres,
    h.spec.polls_bounded, h.consistent.init_polls, h.consistent.measure_polls⟩

theorem SeqState.not_inMeasure {q : SeqState} (h : q.inInit = true) : q.inMeasure ≠ true := by
  cases q <;> simp_all [SeqState.inInit, SeqState.inMeasure]

namespace Running

variable {s : State} {q : SeqState}

theorem setDevstat (h : Running s) (st : Byte) : Running { s with devstat := st } :=
  ⟨h.busy, h.done, h.valid, h.err, h.res, h.polls_bounded, h.init_polls, h.measure_polls⟩

theorem setCalOk (h : Running s) (b : Bool) : Running { s with calOk := b } :=
  ⟨h.busy, h.done, h.valid, h.err, h.res, h.polls_bounded, h.init_polls, h.measure_polls⟩

/-! ### Entering a state -/

theorem spec_enter (h : Running s) (hq : q ≠ .idle) (hcal : 0 < s.busyPolls.toNat → s.calOk = true) :
    SpecInvariants (enter q s) where
  busy_iff := by simp [h.busy, hq]
  busy_not_done := by simp [h.done]
  valid_means := by simp [h.valid]
  err_means := by simp [errFlag_of_err_zero (s := enter q s) h.err]
  busy_means _ := ⟨h.valid, errFlag_of_err_zero h.err⟩
  results_clear _ := h.res
  polls_bounded := h.polls_bounded
  busy_polls_calibrated := hcal

/-- Entering a state of the INIT sequence (R134). -/
theorem inv_enter_init (h : Running s) (hq : q.inInit = true) (hcmd : hasInitPart s) (hcal : s.calOk = false)
    (hbusy : s.busyPolls.toNat = 0) (hpolls : pollsInState (enter q s)) : Inv (enter q s) := by
  have hidle : q ≠ .idle := by rintro rfl; cases hq
  have hstarted : q ≠ .resetWr → q ≠ .resetWait → 1 ≤ s.calPolls.toNat := by
    cases q <;> simp_all [SeqState.inInit, pollsInState]
  exact ⟨h.spec_enter hidle (by simp [hbusy]),
    { transaction := .inl ⟨rfl, rfl⟩
      timer := .inl ⟨rfl, rfl⟩
      init_part := fun _ => ⟨hcmd, hcal, hbusy⟩
      measure_part := fun hm => absurd hm (SeqState.not_inMeasure hq)
      polls := hpolls
      data_ready := by rintro rfl; cases hq
      init_polls := h.init_polls
      measure_polls := h.measure_polls
      cal_started := fun _ hr hw _ => hstarted hr hw
      valid_polls := by simp [h.valid]
      decoded := fun hi => absurd hi hidle
      calibrated := fun hi => absurd hi hidle
      error := errorRecorded_of_err_zero h.err }⟩

/-- Entering a state of the MEASURE sequence (R141). -/
theorem inv_enter_measure (h : Running s) (hq : q.inMeasure = true) (hcmd : hasMeasurePart s)
    (hcal : s.calOk = true) (hstarted : hasInitPart s → 1 ≤ s.calPolls.toNat) (hpolls : pollsInState (enter q s))
    (hready : q = .dataRd → s.devstat &&& Config.maskBusy = 0#8) : Inv (enter q s) := by
  have hidle : q ≠ .idle := by rintro rfl; cases hq
  exact ⟨h.spec_enter hidle fun _ => hcal,
    { transaction := .inl ⟨rfl, rfl⟩
      timer := .inl ⟨rfl, rfl⟩
      init_part := fun hi => absurd hq (SeqState.not_inMeasure hi)
      measure_part := fun _ => ⟨hcmd, hcal⟩
      polls := hpolls
      data_ready := hready
      init_polls := h.init_polls
      measure_polls := h.measure_polls
      cal_started := fun hi _ _ _ => hstarted hi
      valid_polls := by simp [h.valid]
      decoded := fun hi => absurd hi hidle
      calibrated := fun hi => absurd hi hidle
      error := errorRecorded_of_err_zero h.err }⟩

/-! ### Ending a command -/

/-- INIT ends calibrated (R139). -/
theorem inv_finish_init (h : Running s) (hcmd : s.curCmd = some .init) (hcal : s.calOk = true)
    (hpolls : 1 ≤ s.calPolls.toNat) : Inv (finish s) :=
  ⟨{ busy_iff := by simp
     busy_not_done := by simp
     valid_means := by simp [h.valid]
     err_means := by simp [errFlag_of_err_zero (s := finish s) h.err]
     busy_means := by simp
     results_clear := fun _ => h.res
     polls_bounded := h.polls_bounded
     busy_polls_calibrated := fun _ => hcal },
    { transaction := .inl ⟨rfl, rfl⟩
      timer := .inl ⟨rfl, rfl⟩
      init_part := by simp [SeqState.inInit]
      measure_part := by simp [SeqState.inMeasure]
      polls := trivial
      data_ready := by simp
      init_polls := h.init_polls
      measure_polls := h.measure_polls
      cal_started := fun _ _ _ _ => hpolls
      valid_polls := by simp [h.valid]
      decoded := by simp [hcmd]
      calibrated := fun _ _ _ => hcal
      error := errorRecorded_of_err_zero h.err }⟩

/-- MEASURE and READ end in a Measurement (R148). -/
theorem inv_finish_commit (h : Running s) (d : Sample) (hcmd : hasMeasurePart s) (hcal : s.calOk = true)
    (hstarted : hasInitPart s → 1 ≤ s.calPolls.toNat) (hpolls : 1 ≤ s.busyPolls.toNat)
    (hready : s.devstat &&& Config.maskBusy = 0#8) : Inv (finish (commit d s)) :=
  have hnoErr : errFlag (finish (commit d s)) = false := errFlag_of_err_zero h.err
  ⟨{ busy_iff := by simp
     busy_not_done := by simp
     valid_means := fun _ => ⟨rfl, hnoErr, hcal, hcmd⟩
     err_means := by simp [hnoErr]
     busy_means := by simp
     results_clear := by simp
     polls_bounded := h.polls_bounded
     busy_polls_calibrated := fun _ => hcal },
    { transaction := .inl ⟨rfl, rfl⟩
      timer := .inl ⟨rfl, rfl⟩
      init_part := by simp [SeqState.inInit]
      measure_part := by simp [SeqState.inMeasure]
      polls := trivial
      data_ready := by simp
      init_polls := h.init_polls
      measure_polls := h.measure_polls
      cal_started := fun hi _ _ _ => hstarted hi
      valid_polls := fun _ => ⟨hpolls, hready⟩
      decoded := fun _ _ _ => rfl
      calibrated := fun _ _ _ => hcal
      error := errorRecorded_of_err_zero h.err }⟩

/-- A command ends in error (R192), with the record that R191 gives the error. -/
theorem inv_fail (h : Running s) {k : ErrKind} {c : Option Cause} (hk : k ≠ .noError)
    (hcal : 0 < s.busyPolls.toNat → s.calOk = true)
    (hstarted : hasInitPart s → q ≠ .resetWr → 1 ≤ s.calPolls.toNat)
    (hrecord : errorRecorded (fail k c q s)) : Inv (fail k c q s) :=
  ⟨{ busy_iff := by simp
     busy_not_done := by simp
     valid_means := by simp [h.valid]
     err_means := fun _ => ⟨rfl, h.valid⟩
     busy_means := by simp
     results_clear := fun _ => h.res
     polls_bounded := h.polls_bounded
     busy_polls_calibrated := hcal },
    { transaction := .inl ⟨rfl, rfl⟩
      timer := .inl ⟨rfl, rfl⟩
      init_part := by simp [SeqState.inInit]
      measure_part := by simp [SeqState.inMeasure]
      polls := trivial
      data_ready := by simp
      init_polls := h.init_polls
      measure_polls := h.measure_polls
      cal_started := fun hi _ _ hp => hstarted hi hp
      valid_polls := by simp [h.valid]
      decoded := fun _ _ h0 => absurd h0 hk
      calibrated := fun _ _ h0 => absurd h0 hk
      error := hrecord }⟩

end Running

end Sys2Proof.Machine

namespace Sys2Proof.Machine

/-! ### Each sequencer step keeps the invariant -/

section

variable {s : State}

/-- INIT has begun its polls, so they are counted, once a command with an INIT part has left RESET_WAIT. -/
theorem calPolls_pos_of_inMeasure (h : Inv s) (hm : s.seq.inMeasure = true) (hi : hasInitPart s) :
    1 ≤ s.calPolls.toNat := by
  have hrun := running_of_inv h (by rintro h0; rw [h0] at hm; cases hm)
  refine h.consistent.cal_started hi ?_ ?_ (by simp [hrun.err, ErrorReg.zero])
  · intro h0; rw [h0] at hm; cases hm
  · intro h0; rw [h0] at hm; cases hm

theorem inv_softResetAck (h : Inv s) (hs : s.seq = .resetWr) : Inv (enter .resetWait s) := by
  obtain ⟨hcmd, hcal, hbusy⟩ := h.consistent.init_part (by rw [hs]; rfl)
  have hpolls : s.calPolls.toNat = 0 := by simpa [pollsInState, hs] using h.consistent.polls
  exact (running_of_inv h (by simp [hs])).inv_enter_init rfl hcmd hcal hbusy hpolls

theorem inv_triggerAck (h : Inv s) (hs : s.seq = .trigWr) : Inv (enter .trigWait s) := by
  obtain ⟨hcmd, hcal⟩ := h.consistent.measure_part (by rw [hs]; rfl)
  have hpolls : s.busyPolls.toNat = 0 := by simpa [pollsInState, hs] using h.consistent.polls
  exact (running_of_inv h (by simp [hs])).inv_enter_measure rfl hcmd hcal
    (calPolls_pos_of_inMeasure h (by rw [hs]; rfl)) hpolls (by simp)

/-- Where a calibration read is about to start its count is below the budget, so it goes up without wrapping (R35). -/
theorem calPolls_succ (h : Inv s) (hs : s.seq = .resetWait ∨ s.seq = .calWait) :
    s.calPolls.toNat ≤ 9 ∧ (s.calPolls + 1#4).toNat = s.calPolls.toNat + 1 := by
  have hlt : s.calPolls.toNat ≤ 9 := by
    have hpolls := h.consistent.polls
    rcases hs with hs | hs <;> simp only [pollsInState, hs] at hpolls <;> omega
  exact ⟨hlt, by rw [BitVec.toNat_add]; simp; omega⟩

/-- The same of the busy read. -/
theorem busyPolls_succ (h : Inv s) (hs : s.seq = .trigWait ∨ s.seq = .busyWait) :
    s.busyPolls.toNat ≤ 9 ∧ (s.busyPolls + 1#4).toNat = s.busyPolls.toNat + 1 := by
  have hlt : s.busyPolls.toNat ≤ 9 := by
    have hpolls := h.consistent.polls
    rcases hs with hs | hs <;> simp only [pollsInState, hs] at hpolls <;> omega
  exact ⟨hlt, by rw [BitVec.toNat_add]; simp; omega⟩

/-- The calibration read starts (R137). -/
theorem inv_startCalRead (h : Inv s) (hs : s.seq = .resetWait ∨ s.seq = .calWait) : Inv (startCalRead s) := by
  obtain ⟨hcmd, hcal, hbusy⟩ := h.consistent.init_part (by rcases hs with hs | hs <;> rw [hs] <;> rfl)
  obtain ⟨hlt, hnext⟩ := calPolls_succ h hs
  have hrun := running_of_inv h (by rcases hs with hs | hs <;> simp [hs])
  have hrun' : Running { s with calPolls := s.calPolls + 1#4 } :=
    { hrun with
      polls_bounded := ⟨by simp only [hnext]; omega, hrun.polls_bounded.2⟩
      measure_polls := fun hc => by rcases hcmd with hi | hi <;> rw [hi] at hc <;> cases hc }
  exact hrun'.inv_enter_init rfl hcmd hcal hbusy (by simp [pollsInState, hnext])

/-- The busy read starts (R143). -/
theorem inv_startBusyRead (h : Inv s) (hs : s.seq = .trigWait ∨ s.seq = .busyWait) : Inv (startBusyRead s) := by
  have hm : s.seq.inMeasure = true := by rcases hs with hs | hs <;> rw [hs] <;> rfl
  obtain ⟨hcmd, hcal⟩ := h.consistent.measure_part hm
  obtain ⟨hlt, hnext⟩ := busyPolls_succ h hs
  have hrun := running_of_inv h (by rcases hs with hs | hs <;> simp [hs])
  have hrun' : Running { s with busyPolls := s.busyPolls + 1#4 } :=
    { hrun with
      polls_bounded := ⟨hrun.polls_bounded.1, by simp only [hnext]; omega⟩
      init_polls := fun hc => by rcases hcmd with hi | hi <;> rw [hi] at hc <;> cases hc }
  have hstarted := calPolls_pos_of_inMeasure h hm
  exact hrun'.inv_enter_measure rfl hcmd hcal hstarted (by simp [pollsInState, hnext]) (by simp)

/-- The record of a communication failure, in each bus state (R190, R191). -/
theorem errorRecorded_commFailed {f : Frame} {c : Cause} (h : Inv s) (hs : s.seq.frame = some f)
    (hc : c = .dataNack → f = .wrSoftreset ∨ f = .wrTrigger) : errorRecorded (fail .comm (some c) s.seq s) := by
  have hpolls := h.consistent.polls
  have hinit := h.consistent.init_part
  have hmeasure := h.consistent.measure_part
  have hread : f = .rdStatus ∨ f = .rdSample → some c ≠ some .dataNack := by
    rintro hf ⟨⟩
    rcases hc rfl with rfl | rfl <;> simp at hf
  refine ⟨by simp, ?_⟩
  cases hq : s.seq <;> rw [hq] at hs hinit hmeasure <;> simp only [pollsInState, hq] at hpolls <;> cases hs
  case resetWr => exact .inl ⟨rfl, hpolls, (hinit rfl).2.1, (hinit rfl).1⟩
  case calRd => exact .inr (.inl ⟨rfl, hread (.inl rfl), hpolls, (hinit rfl).2.1, (hinit rfl).1⟩)
  case trigWr => exact .inr (.inr (.inl ⟨rfl, hpolls, (hmeasure rfl).2, (hmeasure rfl).1⟩))
  case busyRd => exact .inr (.inr (.inr (.inl ⟨rfl, hread (.inl rfl), hpolls, (hmeasure rfl).2, (hmeasure rfl).1⟩)))
  case dataRd =>
    exact .inr (.inr (.inr (.inr ⟨rfl, hread (.inr rfl), hpolls, h.consistent.data_ready hq, (hmeasure rfl).2,
      (hmeasure rfl).1⟩)))

theorem inv_commFailed {f : Frame} {c : Cause} (h : Inv s) (hs : s.seq.frame = some f)
    (hc : c = .dataNack → f = .wrSoftreset ∨ f = .wrTrigger) : Inv (fail .comm (some c) s.seq s) := by
  have hidle : s.seq ≠ .idle := by intro h0; rw [h0] at hs; cases hs
  have hwait : s.seq ≠ .resetWait := by intro h0; rw [h0] at hs; cases hs
  have hrun := running_of_inv h hidle
  exact hrun.inv_fail (by decide) h.spec.busy_polls_calibrated
    (fun hi hr => h.consistent.cal_started hi hr hwait (by simp [hrun.err, ErrorReg.zero]))
    (errorRecorded_commFailed h hs hc)

/-- The calibration poll, in each of its outcomes (R138, R139). -/
theorem inv_calReadStep (h : Inv s) (hs : s.seq = .calRd) (st : Byte) : Inv (calReadStep (.ok st) s) := by
  obtain ⟨hcmd, hcal, hbusy⟩ := h.consistent.init_part (by rw [hs]; rfl)
  have hpolls : 1 ≤ s.calPolls.toNat := by simpa [pollsInState, hs] using h.consistent.polls
  have hrun := (running_of_inv h (by simp [hs])).setDevstat st
  rcases calReadStep_cases (.ok st) s with ⟨c, h0, -⟩ | ⟨x, h0, hm, ht⟩ | ⟨x, h0, hm, hp, ht⟩ | ⟨x, h0, hm, hp, ht⟩ <;>
    cases h0 <;> rw [ht]
  · rcases calSuccess_cases { s with devstat := st } with ⟨hc, ht⟩ | ⟨hc, ht⟩ | ⟨hi, hr, -⟩
    · rw [ht]
      exact (hrun.setCalOk true).inv_finish_init hc rfl hpolls
    · rw [ht]
      exact (hrun.setCalOk true).inv_enter_measure rfl (.inr hc) rfl (fun _ => hpolls) hbusy (by simp)
    · exact absurd hcmd (not_or.2 ⟨hi, hr⟩)
  · have hlt : s.calPolls.toNat < 10 := hp
    exact hrun.inv_enter_init rfl hcmd hcal hbusy ⟨hpolls, by simp; omega⟩
  · have hge : ¬ s.calPolls.toNat < 10 := hp
    have hten : s.calPolls.toNat = 10 := by have := h.spec.polls_bounded.1; omega
    exact hrun.inv_fail (by decide) (fun hb => absurd hbusy (by simp at hb; omega)) (fun _ _ => hpolls)
      ⟨rfl, rfl, hten, hm, hcal, hcmd⟩

/-- The busy poll, in each of its outcomes (R145). -/
theorem inv_busyReadStep (h : Inv s) (hs : s.seq = .busyRd) (st : Byte) : Inv (busyReadStep (.ok st) s) := by
  have hmeasure : s.seq.inMeasure = true := by rw [hs]; rfl
  obtain ⟨hcmd, hcal⟩ := h.consistent.measure_part hmeasure
  have hstarted := calPolls_pos_of_inMeasure h hmeasure
  have hpolls : 1 ≤ s.busyPolls.toNat := by simpa [pollsInState, hs] using h.consistent.polls
  have hrun := (running_of_inv h (by simp [hs])).setDevstat st
  rcases busyReadStep_cases (.ok st) s with ⟨c, h0, -⟩ | ⟨x, h0, hm, ht⟩ | ⟨x, h0, hm, hp, ht⟩ | ⟨x, h0, hm, hp, ht⟩ <;>
    cases h0 <;> rw [ht]
  · exact hrun.inv_enter_measure rfl hcmd hcal hstarted hpolls (fun _ => hm)
  · have hlt : s.busyPolls.toNat < 10 := hp
    exact hrun.inv_enter_measure rfl hcmd hcal hstarted ⟨hpolls, by simp; omega⟩ (by simp)
  · have hge : ¬ s.busyPolls.toNat < 10 := hp
    have hten : s.busyPolls.toNat = 10 := by have := h.spec.polls_bounded.2; omega
    exact hrun.inv_fail (by decide) (fun _ => hcal) (fun hi _ => hstarted hi) ⟨rfl, rfl, hten, hm, hcal, hcmd⟩

theorem inv_sampleRead (h : Inv s) (hs : s.seq = .dataRd) (d : Sample) : Inv (finish (commit d s)) := by
  have hmeasure : s.seq.inMeasure = true := by rw [hs]; rfl
  obtain ⟨hcmd, hcal⟩ := h.consistent.measure_part hmeasure
  have hpolls : 1 ≤ s.busyPolls.toNat := by simpa [pollsInState, hs] using h.consistent.polls
  exact (running_of_inv h (by simp [hs])).inv_finish_commit d hcmd hcal (calPolls_pos_of_inMeasure h hmeasure) hpolls
    (h.consistent.data_ready hs)

/-- Acceptance needs nothing of the state but CAL_OK for MEASURE: it sets every register the invariant speaks of
(R100). -/
theorem inv_accept {c : Cmd} (hc : c = .measure → s.calOk = true) : Inv (accept c s) := by
  have hrun : Running { s with
      busy := true, done := false, valid := false, curCmd := some c, err := ErrorReg.zero, calPolls := 0#4,
      busyPolls := 0#4, devstat := 0#8, res := Results.zero, calOk := c.calOkAfterAccept s.calOk, cmdTxns := 0 } :=
    ⟨rfl, rfl, rfl, rfl, rfl, by simp, by simp, by simp⟩
  cases c with
  | init => exact hrun.inv_enter_init rfl (.inl rfl) rfl rfl rfl
  | measure => exact hrun.inv_enter_measure rfl (.inl rfl) (hc rfl) (by simp) rfl (by simp [Cmd.start])
  | read => exact hrun.inv_enter_init rfl (.inr rfl) rfl rfl rfl

/-- Every move keeps the invariant, each by its lemma; a host access changes no field the invariant speaks of, but that
an acknowledge may clear DONE. -/
theorem inv_move {e : Event} {t : State} (h : Inv s) (hm : Move s e t) : Inv t := by
  cases hm with
  | read | writeNothing | rejectCmd | intEnWrite | datapath =>
    exact inv_of_unmentioned h id _ _ _ _ _ _ _ _ _ _
  | statusWrite v => exact inv_of_unmentioned h (fun hd => (Bool.and_eq_true_iff.1 hd).1) _ _ _ _ _ _ _ _ _ _
  | noTransaction | noWait | notCompleted => exact h
  | acceptCmd v c hv hs hc => exact inv_accept hc
  | received f a hf ha => exact inv_receive h hf ha
  | waitExpired hw => exact inv_timerExpires h hw
  | softResetAck hs ha => exact inv_softResetAck h hs
  | triggerAck hs ha => exact inv_triggerAck h hs
  | calRead st hs ha => exact inv_calReadStep h hs st
  | busyRead st hs ha => exact inv_busyReadStep h hs st
  | sampleRead d hs ha => exact inv_sampleRead h hs d
  | commFailed f c hs ha hn hc =>
    refine inv_commFailed h hs fun h0 => ?_
    cases f with
    | wrSoftreset => exact .inl rfl
    | wrTrigger => exact .inr rfl
    | rdStatus => exact absurd rfl (hc h0)
    | rdSample => exact absurd rfl hn
  | sampleFailed c hs ha hc =>
    have hfail := inv_commFailed (f := .rdSample) (c := c) h (by rw [hs]; rfl) fun h0 => absurd h0 hc
    exact hs ▸ inv_of_unmentioned hfail id _ _ _ _ _ _ _ _ _ _
  | calWaitOver hs he => exact inv_startCalRead h hs
  | busyWaitOver hs he => exact inv_startBusyRead h hs
  | reset => exact inv_blockReset s

end

/-- Settles O53: with nothing scheduled the state stays; else the step is a move of the event at the schedule's head. -/
theorem stepKeepsInvariant : Obligations.StepKeepsInvariant := by
  intro s t h hstep
  rcases step_next_cases hstep with ⟨-, rfl⟩ | ⟨e, rest, -, hm⟩
  · exact h
  · exact inv_move (inv_schedule h rest) hm

end Sys2Proof.Machine

/-! ### The transaction counts of a command: R149 -/

namespace Sys2Proof.Machine

section

variable {s : State}

/-! ### What each operation adds to the transactions issued -/

/-- An answer moves the transaction in flight to the ended ones. -/
theorem issued_receive {f : Frame} (hf : s.inFlight = some f) (a : Answer) (g : Frame) :
    issued g (receive f a s) = issued g s := by
  simp [issued, cmdHistory, List.countP_cons, hf]

theorem issued_accept (c : Cmd) (g : Frame) :
    issued g (accept c s) = if c.start.frame = some g then 1 else 0 := by
  rw [issued, cmdHistory, accept_cmdTxns, List.take_zero, List.countP_nil, Nat.zero_add, accept_inFlight]

/-- A step with nothing in flight before it issues at most the transaction in flight after it. -/
theorem issued_of_none_inFlight {t : State} (hn : s.inFlight = none) (hh : t.history = s.history)
    (ht : t.cmdTxns = s.cmdTxns) (g : Frame) :
    issued g t = issued g s + if t.inFlight = some g then 1 else 0 := by
  simp [issued, cmdHistory, hn, hh, ht]

/-! ### When a sample read has been issued -/

theorem sampleIssued_iff :
    sampleIssued s = true ↔ s.seq = .dataRd ∨ s.valid = true ∨ (s.err.kind = .comm ∧ s.err.phase = .dataRd) := by
  simp [sampleIssued, or_assoc]

theorem sampleIssued_eq_false (hs : s.seq ≠ .dataRd) (hv : s.valid = false) (he : s.err = ErrorReg.zero) :
    sampleIssued s = false := by
  rw [← Bool.not_eq_true, sampleIssued_iff]
  simp [hs, hv, he, ErrorReg.zero]

theorem sampleIssued_congr {t : State} (hs : t.seq = .dataRd ↔ s.seq = .dataRd) (hv : t.valid = s.valid)
    (he : t.err = s.err) : sampleIssued t = sampleIssued s := by
  rw [Bool.eq_iff_iff, sampleIssued_iff, sampleIssued_iff, hs, hv, he]

/-! ### Counts kept -/

/-- The counts after a sequencer's step: of each kind, those issued before and the one it starts. -/
theorem counted_of_sequencerStep {t : State} (h : Counted s) (hn : s.inFlight = none) (hh : t.history = s.history)
    (ht : t.cmdTxns = s.cmdTxns) (hc : t.curCmd = s.curCmd) (hreset : t.inFlight ≠ some .wrSoftreset)
    (htrigger : triggersOf t.curCmd t.calOk =
      triggersOf s.curCmd s.calOk + if t.inFlight = some .wrTrigger then 1 else 0)
    (hstatus : t.calPolls.toNat + t.busyPolls.toNat =
      s.calPolls.toNat + s.busyPolls.toNat + if t.inFlight = some .rdStatus then 1 else 0)
    (hsample : (if sampleIssued t then 1 else 0) =
      (if sampleIssued s then 1 else 0) + if t.inFlight = some .rdSample then 1 else 0) : Counted t where
  ended := by rw [hh, ht]; exact h.ended
  soft_resets := by rw [issued_of_none_inFlight hn hh ht, h.soft_resets, hc, if_neg hreset, Nat.add_zero]
  triggers := by rw [issued_of_none_inFlight hn hh ht, h.triggers, htrigger]
  status_reads := by rw [issued_of_none_inFlight hn hh ht, h.status_reads, hstatus]
  sample_reads := by rw [issued_of_none_inFlight hn hh ht, h.sample_reads, hsample]

theorem counted_receive {f : Frame} (h : Counted s) (hf : s.inFlight = some f) (a : Answer) :
    Counted (receive f a s) where
  ended := Nat.succ_le_succ h.ended
  soft_resets := (issued_receive hf a _).trans h.soft_resets
  triggers := (issued_receive hf a _).trans h.triggers
  status_reads := (issued_receive hf a _).trans h.status_reads
  sample_reads := (issued_receive hf a _).trans h.sample_reads

/-- The counts speak of none of the fields a host access, an expiry or a datapath operation changes. -/
theorem counted_of_unmentioned (h : Counted s) (done rej doneIe rejIe expired : Bool) (wait : Option Nat)
    (dp : Datapath)
    (reply : Option HostReply) : Counted { s with
      done := done, rej := rej, doneIe := doneIe, rejIe := rejIe, wait := wait, expired := expired, dp := dp,
      reply := reply } :=
  ⟨h.ended, h.soft_resets, h.triggers, h.status_reads, h.sample_reads⟩

theorem counted_accept (c : Cmd) (s : State) : Counted (accept c s) := by
  cases c with
  | init => exact ⟨Nat.zero_le _, issued_accept .., issued_accept .., issued_accept .., issued_accept ..⟩
  | measure => exact ⟨Nat.zero_le _, issued_accept .., issued_accept .., issued_accept .., issued_accept ..⟩
  | read => exact ⟨Nat.zero_le _, issued_accept .., issued_accept .., issued_accept .., issued_accept ..⟩

theorem counted_blockReset (s : State) : Counted (blockReset s) :=
  ⟨Nat.zero_le _, rfl, rfl, rfl, rfl⟩

/-! ### Each sequencer step keeps the counts -/

/-- A step of a running command that starts no transaction, and is not the end of a sample read. -/
theorem counted_enter (h : Counted s) (hn : s.inFlight = none) (hs : s.seq ≠ .dataRd) {q : SeqState}
    (hq : q.frame = none) (st : Byte) : Counted (enter q { s with devstat := st }) := by
  have hq' : q ≠ .dataRd := by rintro rfl; cases hq
  have hsample : sampleIssued (enter q { s with devstat := st }) = sampleIssued s :=
    sampleIssued_congr (iff_of_false hq' hs) rfl rfl
  exact counted_of_sequencerStep h hn rfl rfl rfl (by simp [hq]) (by simp [hq]) (by simp [hq]) (by simp [hq, hsample])

/-- A failed command has issued a sample read exactly if it failed in DATA_RD. -/
theorem counted_fail (h : Counted s) (hrun : Running s) (hn : s.inFlight = none) {k : ErrKind} {c : Option Cause}
    (hk : s.seq = .dataRd → k = .comm) (st : Byte) : Counted (fail k c s.seq { s with devstat := st }) := by
  have hsample : sampleIssued (fail k c s.seq { s with devstat := st }) = sampleIssued s := by
    rw [Bool.eq_iff_iff, sampleIssued_iff, sampleIssued_iff]
    by_cases hs : s.seq = .dataRd
    · simp [hs, hk hs]
    · simp [hs, hrun.err, ErrorReg.zero]
  exact counted_of_sequencerStep h hn rfl rfl rfl (by simp) (by simp) (by simp) (by simp [hsample])

theorem counted_calReadStep (hi : Inv s) (h : Counted s) (hs : s.seq = .calRd) (hn : s.inFlight = none) (st : Byte) :
    Counted (calReadStep (.ok st) s) := by
  obtain ⟨hcmd, hcal, -⟩ := hi.consistent.init_part (by rw [hs]; rfl)
  have hrun := running_of_inv hi (by simp [hs])
  have hseq : s.seq ≠ .dataRd := by simp [hs]
  have hnone := sampleIssued_eq_false hseq hrun.valid hrun.err
  rcases calReadStep_cases (.ok st) s with ⟨c, h0, -⟩ | ⟨x, h0, hm, ht⟩ | ⟨x, h0, hm, hp, ht⟩ | ⟨x, h0, hm, hp, ht⟩ <;>
    cases h0 <;> rw [ht]
  · rcases calSuccess_cases { s with devstat := st } with ⟨hc, ht⟩ | ⟨hc, ht⟩ | ⟨hi, hr, -⟩
    · have hc : s.curCmd = some .init := hc
      have hafter : sampleIssued (finish { s with devstat := st, calOk := true }) = false :=
        sampleIssued_eq_false (by simp) hrun.valid hrun.err
      rw [ht]
      exact counted_of_sequencerStep h hn rfl rfl rfl (by simp) (by simp [hc, triggersOf]) (by simp)
        (by simp [hnone, hafter])
    · have hc : s.curCmd = some .read := hc
      have hafter : sampleIssued (enter .trigWr { s with devstat := st, calOk := true }) = false :=
        sampleIssued_eq_false (by simp) hrun.valid hrun.err
      rw [ht]
      exact counted_of_sequencerStep h hn rfl rfl rfl (by simp [SeqState.frame])
        (by simp [hc, hcal, triggersOf, SeqState.frame]) (by simp [SeqState.frame])
        (by simp [hnone, hafter, SeqState.frame])
    · exact absurd hcmd (not_or.2 ⟨hi, hr⟩)
  · exact counted_enter h hn hseq rfl st
  · exact hs ▸ counted_fail h hrun hn (fun h0 => absurd h0 hseq) st

theorem counted_busyReadStep (hi : Inv s) (h : Counted s) (hs : s.seq = .busyRd) (hn : s.inFlight = none) (st : Byte) :
    Counted (busyReadStep (.ok st) s) := by
  have hrun := running_of_inv hi (by simp [hs])
  have hseq : s.seq ≠ .dataRd := by simp [hs]
  rcases busyReadStep_cases (.ok st) s with ⟨c, h0, -⟩ | ⟨x, h0, hm, ht⟩ | ⟨x, h0, hm, hp, ht⟩ | ⟨x, h0, hm, hp, ht⟩ <;>
    cases h0 <;> rw [ht]
  · exact counted_of_sequencerStep h hn rfl rfl rfl (by simp [SeqState.frame]) (by simp [SeqState.frame])
      (by simp [SeqState.frame])
      (by simp [sampleIssued_eq_false hseq hrun.valid hrun.err, sampleIssued_iff.2 (.inl (enter_seq ..)),
        SeqState.frame])
  · exact counted_enter h hn hseq rfl st
  · exact hs ▸ counted_fail h hrun hn (fun h0 => absurd h0 hseq) st

theorem counted_sampleRead (h : Counted s) (hs : s.seq = .dataRd) (hn : s.inFlight = none) (d : Sample) :
    Counted (finish (commit d s)) := by
  have hafter : sampleIssued (finish (commit d s)) = true := sampleIssued_iff.2 (.inr (.inl rfl))
  exact counted_of_sequencerStep h hn rfl rfl rfl (by simp) (by simp) (by simp)
    (by simp [sampleIssued_iff.2 (.inl hs), hafter])

theorem counted_startCalRead (hi : Inv s) (h : Counted s) (hs : s.seq = .resetWait ∨ s.seq = .calWait)
    (hn : s.inFlight = none) : Counted (startCalRead s) := by
  obtain ⟨-, hnext⟩ := calPolls_succ hi hs
  have hsample : sampleIssued (startCalRead s) = sampleIssued s :=
    sampleIssued_congr (iff_of_false (by simp) (by rcases hs with hs | hs <;> simp [hs])) rfl rfl
  exact counted_of_sequencerStep h hn rfl rfl rfl (by simp) (by simp)
    (by simp only [startCalRead_calPolls, startCalRead_busyPolls, startCalRead_inFlight, hnext, if_true]; omega)
    (by simp [hsample])

theorem counted_startBusyRead (hi : Inv s) (h : Counted s) (hs : s.seq = .trigWait ∨ s.seq = .busyWait)
    (hn : s.inFlight = none) : Counted (startBusyRead s) := by
  obtain ⟨-, hnext⟩ := busyPolls_succ hi hs
  have hsample : sampleIssued (startBusyRead s) = sampleIssued s :=
    sampleIssued_congr (iff_of_false (by simp) (by rcases hs with hs | hs <;> simp [hs])) rfl rfl
  exact counted_of_sequencerStep h hn rfl rfl rfl (by simp) (by simp)
    (by simp only [startBusyRead_calPolls, startBusyRead_busyPolls, startBusyRead_inFlight, hnext, if_true]; omega)
    (by simp [hsample])

/-- In a wait state nothing is in flight. -/
theorem inFlight_eq_none_of_delay (h : Inv s) (hd : s.seq.frame = none) : s.inFlight = none := by
  rcases h.consistent.transaction with ⟨hf, -⟩ | ⟨hn, -⟩
  · rw [hf, hd]
  · exact hn

/-- Every move keeps the counts, each by its lemma. -/
theorem counted_move {e : Event} {t : State} (hi : Inv s) (h : Counted s) (hm : Move s e t) : Counted t := by
  cases hm with
  | read | writeNothing | rejectCmd | statusWrite | intEnWrite | waitExpired | datapath =>
    exact counted_of_unmentioned h _ _ _ _ _ _ _ _
  | noTransaction | noWait | notCompleted => exact h
  | acceptCmd v c hv hs hc => exact counted_accept c _
  | received f a hf ha => exact counted_receive h hf a
  | softResetAck hs ha => exact counted_enter h (answered_of_inv hi ha).1 (by simp [hs]) rfl s.devstat
  | triggerAck hs ha => exact counted_enter h (answered_of_inv hi ha).1 (by simp [hs]) rfl s.devstat
  | calRead st hs ha => exact counted_calReadStep hi h hs (answered_of_inv hi ha).1 st
  | busyRead st hs ha => exact counted_busyReadStep hi h hs (answered_of_inv hi ha).1 st
  | sampleRead d hs ha => exact counted_sampleRead h hs (answered_of_inv hi ha).1 d
  | commFailed f c hs ha hn hc =>
    have hrun := running_of_inv hi (by intro h0; rw [h0] at hs; cases hs)
    exact counted_fail h hrun (answered_of_inv hi ha).1 (fun _ => rfl) s.devstat
  | sampleFailed c hs ha hc =>
    have hrun := running_of_inv hi (by simp [hs])
    have hfail := counted_fail (c := some c) h hrun (answered_of_inv hi ha).1 (fun _ => rfl) s.devstat
    rw [hs] at hfail
    exact ⟨hfail.ended, hfail.soft_resets, hfail.triggers, hfail.status_reads, hfail.sample_reads⟩
  | calWaitOver hs he =>
    exact counted_startCalRead hi h hs (inFlight_eq_none_of_delay hi (by rcases hs with hs | hs <;> rw [hs] <;> rfl))
  | busyWaitOver hs he =>
    exact counted_startBusyRead hi h hs (inFlight_eq_none_of_delay hi (by rcases hs with hs | hs <;> rw [hs] <;> rfl))
  | reset => exact counted_blockReset s

end

/-- Settles O54: as for O53, with `counted_move`. -/
theorem stepKeepsTransactionCounts : Obligations.StepKeepsTransactionCounts := by
  intro s t hi h hstep
  rcases step_next_cases hstep with ⟨-, rfl⟩ | ⟨e, rest, -, hm⟩
  · exact h
  · exact counted_move (inv_schedule hi rest) (counted_schedule h rest) hm

end Sys2Proof.Machine

/-! ### Bytes and words: R63, R86 to R89 -/

namespace Sys2Proof.Machine

/-- The four bytes of a host word put together from bytes are those bytes. -/
theorem leBytes_leWord (b0 b1 b2 b3 : Byte) : leBytes (leWord b0 b1 b2 b3) = [b0, b1, b2, b3] := by
  simp only [leBytes, leWord, List.cons.injEq, and_true]
  refine ⟨?_, ?_, ?_, ?_⟩ <;> apply BitVec.eq_of_toNat_eq <;>
    simp only [BitVec.extractLsb'_toNat, toNat_append_eq_add, Nat.shiftRight_eq_div_pow] <;> omega

/-- The last byte of a word, most significant first, is the word's low byte. -/
theorem beBytes_append {m : Nat} (n : Nat) (x : BitVec m) (b : Byte) :
    beBytes (n + 1) (x ++ b).toNat = beBytes n x.toNat ++ [b] := by
  rw [toNat_append_eq_add]
  induction n with
  | zero =>
    simp only [beBytes, List.nil_append, List.cons.injEq, and_true]
    apply BitVec.eq_of_toNat_eq
    rw [BitVec.toNat_ofNat]
    omega
  | succ n ih =>
    have hhead : (x.toNat * 2 ^ 8 + b.toNat) / 2 ^ (8 * (n + 1)) = x.toNat / 2 ^ (8 * n) := by
      rw [show 8 * (n + 1) = 8 + 8 * n by omega, pow_add, ← Nat.div_div_eq_div_mul]
      congr 1
      omega
    rw [beBytes, ih, hhead]
    rfl

theorem beBytes_byte (b : Byte) : beBytes 1 b.toNat = [b] := by
  simp [beBytes]

theorem beBytes_append3 (b0 b1 b2 : Byte) : beBytes 3 (b0 ++ b1 ++ b2).toNat = [b0, b1, b2] := by
  simp only [beBytes_append, beBytes_byte, List.cons_append, List.nil_append]

theorem beBytes_append5 (b0 b1 b2 b3 b4 : Byte) :
    beBytes 5 (b0 ++ b1 ++ b2 ++ b3 ++ b4).toNat = [b0, b1, b2, b3, b4] := by
  simp only [beBytes_append, beBytes_byte, List.cons_append, List.nil_append]

theorem beBytes_append8 (b0 b1 b2 b3 b4 b5 b6 b7 : Byte) :
    beBytes 8 (b0 ++ b1 ++ b2 ++ b3 ++ b4 ++ b5 ++ b6 ++ b7).toNat = [b0, b1, b2, b3, b4, b5, b6, b7] := by
  simp only [beBytes_append, beBytes_byte, List.cons_append, List.nil_append]

/-- A word of `n + 8` bits ends in a byte. -/
theorem exists_append_byte {n : Nat} (w : BitVec (n + 8)) : ∃ (x : BitVec n) (b : Byte), w = x ++ b :=
  ⟨w.extractLsb' 8 n, w.extractLsb' 0 8, by
    apply BitVec.eq_of_toNat_eq
    have := w.isLt
    rw [toNat_append_eq_add, BitVec.extractLsb'_toNat, BitVec.extractLsb'_toNat, Nat.shiftRight_zero,
      Nat.shiftRight_eq_div_pow, Nat.mod_eq_of_lt (a := w.toNat / 2 ^ 8) (by rw [pow_add] at this; omega)]
    omega⟩

theorem exists_bytes5 (w : BitVec 40) : ∃ b0 b1 b2 b3 b4 : Byte, w = b0 ++ b1 ++ b2 ++ b3 ++ b4 := by
  obtain ⟨w4, b4, h4⟩ := exists_append_byte (n := 32) w
  obtain ⟨w3, b3, h3⟩ := exists_append_byte (n := 24) w4
  obtain ⟨w2, b2, h2⟩ := exists_append_byte (n := 16) w3
  obtain ⟨b0, b1, h1⟩ := exists_append_byte (n := 8) w2
  exact ⟨b0, b1, b2, b3, b4, by rw [h4, h3, h2, h1]⟩

theorem exists_bytes8 (w : BitVec 64) :
    ∃ b0 b1 b2 b3 b4 b5 b6 b7 : Byte, w = b0 ++ b1 ++ b2 ++ b3 ++ b4 ++ b5 ++ b6 ++ b7 := by
  obtain ⟨w7, b7, h7⟩ := exists_append_byte (n := 56) w
  obtain ⟨w6, b6, h6⟩ := exists_append_byte (n := 48) w7
  obtain ⟨w5, b5, h5⟩ := exists_append_byte (n := 40) w6
  obtain ⟨b0, b1, b2, b3, b4, h4⟩ := exists_bytes5 w5
  exact ⟨b0, b1, b2, b3, b4, b5, b6, b7, by rw [h7, h6, h5, h4]⟩

end Sys2Proof.Machine

/-! ### The operand read back from a binary64 word: R177, R178 -/

namespace Sys2Proof.Machine

/-- F64's word gives its operand back. -/
theorem f64Operand_f64 {m : Int} (hm : m.natAbs < 2 ^ 52) : f64Operand (f64 m) = some m := by
  by_cases h0 : m = 0
  · subst h0; rfl
  obtain ⟨hp, -, -⟩ := natAbs_scaled_bounds h0 hm
  have hfull : 2 ^ 52 + ((f64 m).extractLsb' 0 52).toNat = m.natAbs * 2 ^ (52 - m.natAbs.log2) := by
    rw [Nat.add_comm, f64_fraction h0 hm]
  have hunit : 1055 - (m.natAbs.log2 + 1003) = 52 - m.natAbs.log2 := by omega
  have hrange : 1003 ≤ m.natAbs.log2 + 1003 ∧ m.natAbs.log2 + 1003 ≤ 1054 := by omega
  have hpos : 0 < 2 ^ (52 - m.natAbs.log2) := by positivity
  simp only [f64Operand, f64_ne_zero h0 hm, f64_exponent h0 hm, f64_sign h0, hfull, hunit, hrange, if_false,
    Nat.mul_mod_left, Nat.mul_div_cancel _ hpos, and_self, if_true, decide_eq_true_eq, Option.some.injEq]
  omega

/-- A bit of a word, as a number. -/
theorem toNat_ofBool_getLsbD {n : Nat} (v : BitVec n) (i : Nat) :
    (BitVec.ofBool (v.getLsbD i)).toNat = v.toNat / 2 ^ i % 2 := by
  rw [← BitVec.testBit_toNat, Nat.testBit_eq_decide_div_mod_eq, BitVec.toNat_ofBool]
  rcases Nat.mod_two_eq_zero_or_one (v.toNat / 2 ^ i) with h | h <;> rw [h] <;> rfl

/-- A binary64 word is its sign, exponent and fraction. -/
theorem binary64_fields (w : BitVec 64) :
    BitVec.ofBool (w.getLsbD 63) ++ w.extractLsb' 52 11 ++ w.extractLsb' 0 52 = w := by
  apply BitVec.eq_of_toNat_eq
  have := w.isLt
  simp only [toNat_append_eq_add, BitVec.extractLsb'_toNat, toNat_ofBool_getLsbD, Nat.shiftRight_eq_div_pow]
  omega

/-- The quotient of a 53-bit significand by the unit of its exponent has its highest bit where the exponent says. -/
theorem log2_significand {e f q : Nat} (hlow : 1003 ≤ e) (hhigh : e ≤ 1054) (hf : f < 2 ^ 52)
    (hq : 2 ^ 52 + f = 2 ^ (1055 - e) * q) : 0 < q ∧ q < 2 ^ 52 ∧ q.log2 = e - 1003 := by
  have hpos : 0 < 2 ^ (1055 - e) := by positivity
  have hpow : 2 ^ (1055 - e) * 2 ^ (e - 1003) = 2 ^ 52 := by
    rw [← pow_add, show 1055 - e + (e - 1003) = 52 by omega]
  have hqlow : 2 ^ (e - 1003) ≤ q := Nat.le_of_mul_le_mul_left (by omega) hpos
  have hqhigh : q < 2 ^ (e - 1003 + 1) := by
    refine Nat.lt_of_mul_lt_mul_left (a := 2 ^ (1055 - e)) ?_
    calc 2 ^ (1055 - e) * q = 2 ^ 52 + f := hq.symm
      _ < 2 ^ 52 * 2 := by omega
      _ = 2 ^ (1055 - e) * 2 ^ (e - 1003 + 1) := by rw [← hpow, pow_succ, Nat.mul_assoc]
  have hqpos : 0 < q := lt_of_lt_of_le (by positivity) hqlow
  exact ⟨hqpos, lt_of_lt_of_le hqhigh (Nat.pow_le_pow_right (by decide) (by omega)),
    (Nat.log2_eq_iff hqpos.ne').2 ⟨hqlow, hqhigh⟩⟩

/-- A word with an operand is F64's word of it: sign, exponent and fraction are those of the quotient. -/
theorem f64_of_f64Operand {w : BitVec 64} {m : Int} (h : f64Operand w = some m) : m.natAbs < 2 ^ 52 ∧ f64 m = w := by
  simp only [f64Operand] at h
  split at h
  case isTrue h0 => cases h; exact ⟨by decide, h0.symm⟩
  case isFalse h0 =>
  split at h
  case isFalse => cases h
  case isTrue hr =>
  obtain ⟨hlow, hhigh, hmod⟩ := hr
  have hf := (w.extractLsb' 0 52).isLt
  generalize he : (w.extractLsb' 52 11).toNat = e at *
  generalize hfrac : (w.extractLsb' 0 52).toNat = f at *
  obtain ⟨q, hq⟩ : 2 ^ (1055 - e) ∣ 2 ^ 52 + f := Nat.dvd_of_mod_eq_zero hmod
  obtain ⟨hqpos, hqlt, hlog⟩ := log2_significand hlow hhigh hf hq
  rw [hq, Nat.mul_div_cancel_left _ (by positivity), Option.some.injEq] at h
  have habs : m.natAbs = q := by subst h; split <;> simp
  have hsign : decide (m < 0) = w.getLsbD 63 := by subst h; cases w.getLsbD 63 <;> simp [hqpos]
  have hm0 : m ≠ 0 := by rw [← Int.natAbs_ne_zero, habs]; exact hqpos.ne'
  have hexp : BitVec.ofNat 11 (e - 1003 + 1003) = w.extractLsb' 52 11 := by
    apply BitVec.eq_of_toNat_eq
    rw [he, BitVec.toNat_ofNat]; omega
  have hfraction : BitVec.ofNat 52 (q * 2 ^ (52 - (e - 1003))) = w.extractLsb' 0 52 := by
    apply BitVec.eq_of_toNat_eq
    rw [hfrac, show 52 - (e - 1003) = 1055 - e by omega, Nat.mul_comm, ← hq, BitVec.toNat_ofNat]; omega
  refine ⟨habs ▸ hqlt, ?_⟩
  rw [f64, if_neg hm0, hsign, habs, hlog, hexp, hfraction, binary64_fields]

/-- A code's scaled numerator gives the code back. -/
theorem codeOfScaled_mul (c : BitVec 20) {scale : Nat} (h : 0 < scale) :
    codeOfScaled (c.toNat * scale) scale = some c := by
  have hlt := c.isLt
  have hdiv : (c.toNat : Int) * scale / scale = c.toNat := Int.mul_ediv_cancel _ (by omega)
  have hcond : (0 : Int) ≤ c.toNat * scale ∧ (c.toNat : Int) * scale % scale = 0 ∧
      (c.toNat : Int) * scale / scale < 2 ^ 20 :=
    ⟨by positivity, Int.mul_emod_left _ _, by rw [hdiv]; exact_mod_cast hlt⟩
  rw [codeOfScaled, if_pos hcond, hdiv, Int.toNat_natCast, BitVec.ofNat_toNat, BitVec.setWidth_eq]

theorem mul_of_codeOfScaled {n : Int} {scale : Nat} {c : BitVec 20} (h : codeOfScaled n scale = some c) :
    c.toNat * scale = n := by
  rw [codeOfScaled] at h
  split at h
  case isFalse => cases h
  case isTrue hr =>
  obtain ⟨hn, hmod, hlt⟩ := hr
  cases h
  have hnonneg : 0 ≤ n / (scale : Int) := Int.ediv_nonneg hn (by positivity)
  rw [BitVec.toNat_ofNat, Nat.mod_eq_of_lt (by omega), Int.toNat_of_nonneg hnonneg]
  exact Int.ediv_mul_cancel_of_emod_eq_zero hmod

theorem convHum64Operand_convHum64 (c : BitVec 20) : convHum64Operand (convHum64 c) = some c := by
  have hlt := c.isLt
  have hm : (convHum c).natAbs < 2 ^ 52 := by simp only [convHum, Config.humScale]; omega
  rw [convHum64Operand, convHum64, f64Operand_f64 hm]
  exact codeOfScaled_mul c (by decide)

theorem convTemp64Operand_convTemp64 (c : BitVec 20) : convTemp64Operand (convTemp64 c) = some c := by
  have hlt := c.isLt
  have hm : (convTemp c).natAbs < 2 ^ 52 := by
    simp only [convTemp, Config.tempScale, Config.tempOffset, Config.codeRange]; omega
  rw [convTemp64Operand, convTemp64, f64Operand_f64 hm, Option.bind_some, convTemp, Int.sub_add_cancel]
  exact codeOfScaled_mul c (by decide)

theorem convHum64_of_operand {w : BitVec 64} {c : BitVec 20} (h : convHum64Operand w = some c) : convHum64 c = w := by
  obtain ⟨m, hm, hc⟩ := Option.bind_eq_some_iff.1 h
  rw [convHum64, convHum, mul_of_codeOfScaled hc, (f64_of_f64Operand hm).2]

theorem convTemp64_of_operand {w : BitVec 64} {c : BitVec 20} (h : convTemp64Operand w = some c) :
    convTemp64 c = w := by
  obtain ⟨m, hm, hc⟩ := Option.bind_eq_some_iff.1 h
  rw [convTemp64, convTemp, mul_of_codeOfScaled hc, Int.add_sub_cancel, (f64_of_f64Operand hm).2]

end Sys2Proof.Machine

/-! ### Decoder and encoder, format by format: 30_encoding.md -/

namespace Sys2Proof

/-! ### Host words -/

section

variable (v : Word)

theorem decode_hcmd : decode .hcmd (Machine.leBytes v) = .ok (decodeCommand v) := by
  simp [decode, Machine.leBytes, Machine.leWord_leBytes]

theorem decode_hstw : decode .hstw (Machine.leBytes v) = decodeStatusWrite v := by
  simp [decode, Machine.leBytes, Machine.leWord_leBytes]

theorem decode_hiew : decode .hiew (Machine.leBytes v) = .ok (decodeIntEn v) := by
  simp [decode, Machine.leBytes, Machine.leWord_leBytes]

/-- A host word is its fields (R80, R83). -/
theorem commandWord_fields : commandWord (v.extractLsb' 0 3) (v.extractLsb' 3 29) = v := by
  apply BitVec.eq_of_toNat_eq
  have := v.isLt
  simp only [commandWord, Machine.toNat_append_eq_add, BitVec.extractLsb'_toNat, Nat.shiftRight_eq_div_pow]
  omega

theorem statusWriteWord_fields :
    statusWriteWord (v.getLsbD 1) (v.getLsbD 2) (v.getLsbD 0) (v.extractLsb' 3 29) = v := by
  apply BitVec.eq_of_toNat_eq
  have := v.isLt
  simp only [statusWriteWord, Machine.toNat_append_eq_add, BitVec.extractLsb'_toNat, Machine.toNat_ofBool_getLsbD,
    Nat.shiftRight_eq_div_pow]
  omega

theorem intEnWriteWord_fields : intEnWriteWord (v.getLsbD 0) (v.getLsbD 1) (v.extractLsb' 2 30) = v := by
  apply BitVec.eq_of_toNat_eq
  have := v.isLt
  simp only [intEnWriteWord, Machine.toNat_append_eq_add, BitVec.extractLsb'_toNat, Machine.toNat_ofBool_getLsbD,
    Nat.shiftRight_eq_div_pow]
  omega

end

/-- A command word's code and the bits above it (R80). -/
theorem commandWord_code (cmd : BitVec 3) (ign : BitVec 29) : (commandWord cmd ign).extractLsb' 0 3 = cmd :=
  BitVec.extractLsb'_append_eq_right

theorem commandWord_ignored (cmd : BitVec 3) (ign : BitVec 29) : (commandWord cmd ign).extractLsb' 3 29 = ign :=
  BitVec.extractLsb'_append_eq_left

theorem decodeStatusWrite_statusWriteWord (clrDone clrRej ign0 : Bool) (ign : BitVec 29) :
    decodeStatusWrite (statusWriteWord clrDone clrRej ign0 ign) =
      if clrDone then .ok (.ackDone clrRej ign0 ign)
      else if clrRej then .ok (.ackRej false ign0 ign) else .rejected .noAcknowledge := by
  have h1 : (statusWriteWord clrDone clrRej ign0 ign).getLsbD 1 = clrDone := by
    simp only [statusWriteWord, BitVec.getLsbD_append]; simp
  have h2 : (statusWriteWord clrDone clrRej ign0 ign).getLsbD 2 = clrRej := by
    simp only [statusWriteWord, BitVec.getLsbD_append]; simp
  have h0 : (statusWriteWord clrDone clrRej ign0 ign).getLsbD 0 = ign0 := by
    simp only [statusWriteWord, BitVec.getLsbD_append]; simp
  have hign : (statusWriteWord clrDone clrRej ign0 ign).extractLsb' 3 29 = ign := by
    apply BitVec.eq_of_toNat_eq
    have := ign.isLt
    have hr := (BitVec.ofBool clrRej).isLt
    have hd := (BitVec.ofBool clrDone).isLt
    have hi := (BitVec.ofBool ign0).isLt
    simp only [statusWriteWord, Machine.toNat_append_eq_add, BitVec.extractLsb'_toNat, Nat.shiftRight_eq_div_pow]
    omega
  rw [decodeStatusWrite, h1, h2, h0, hign]

theorem decodeIntEn_intEnWriteWord (doneIe rejIe : Bool) (ign : BitVec 30) :
    decodeIntEn (intEnWriteWord doneIe rejIe ign) = .wrIntEn doneIe rejIe ign := by
  have h0 : (intEnWriteWord doneIe rejIe ign).getLsbD 0 = doneIe := by
    simp only [intEnWriteWord, BitVec.getLsbD_append]; simp
  have h1 : (intEnWriteWord doneIe rejIe ign).getLsbD 1 = rejIe := by
    simp only [intEnWriteWord, BitVec.getLsbD_append]; simp
  have hign : (intEnWriteWord doneIe rejIe ign).extractLsb' 2 30 = ign := by
    apply BitVec.eq_of_toNat_eq
    have := ign.isLt
    have hr := (BitVec.ofBool rejIe).isLt
    have hd := (BitVec.ofBool doneIe).isLt
    simp only [intEnWriteWord, Machine.toNat_append_eq_add, BitVec.extractLsb'_toNat, Nat.shiftRight_eq_div_pow]
    omega
  rw [decodeIntEn, h0, h1, hign]

/-! ### What a decoded instruction is -/

/-- `i` is the one meaning of these bytes: a well-formed instruction of the format that encodes to them. -/
structure MeaningOf (f : Format) (bytes : List Byte) (i : Instr) : Prop where
  encodes : encode i = bytes
  format : formatOf i = f
  wellFormed : i.wellFormed = true

theorem meaningOf_decodeCommand (v : Word) : MeaningOf .hcmd (Machine.leBytes v) (decodeCommand v) := by
  rw [← commandWord_fields v]
  generalize v.extractLsb' 0 3 = k
  generalize v.extractLsb' 3 29 = ign
  rw [decodeCommand, commandWord_code, commandWord_ignored]
  obtain ⟨⟨k, hk⟩⟩ := k
  interval_cases k <;> exact ⟨rfl, rfl, rfl⟩

theorem meaningOf_decodeStatusWrite {v : Word} {i : Instr} (h : decodeStatusWrite v = .ok i) :
    MeaningOf .hstw (Machine.leBytes v) i := by
  have hv := statusWriteWord_fields v
  generalize v.extractLsb' 3 29 = ign at hv
  generalize v.getLsbD 0 = ign0 at hv
  rw [← hv, decodeStatusWrite_statusWriteWord] at h
  rw [← hv]
  cases h1 : v.getLsbD 1 <;> cases h2 : v.getLsbD 2 <;> rw [h1, h2] at h <;> cases h <;> exact ⟨rfl, rfl, rfl⟩

theorem meaningOf_decodeIntEn (v : Word) : MeaningOf .hiew (Machine.leBytes v) (decodeIntEn v) :=
  ⟨congrArg Machine.leBytes (intEnWriteWord_fields v), rfl, rfl⟩

/-! ### Answered transactions -/

theorem decodeWriteOutcome_writeOutcomeByte (a : WriteAnswer) (mk : WriteAnswer → Instr) :
    decodeWriteOutcome (writeOutcomeByte a) mk = .ok (mk a) := by
  cases a with
  | ok => rfl
  | err c => cases c <;> rfl

theorem eq_of_decodeWriteOutcome {o : Byte} {mk : WriteAnswer → Instr} {i : Instr}
    (h : decodeWriteOutcome o mk = .ok i) : ∃ a, o = writeOutcomeByte a ∧ i = mk a := by
  unfold decodeWriteOutcome at h
  split at h
  case isTrue ho => cases h; exact ⟨.ok, ho, rfl⟩
  split at h
  case isTrue ho => cases h; exact ⟨.err .addrNack, ho, rfl⟩
  split at h
  case isTrue ho => cases h; exact ⟨.err .dataNack, ho, rfl⟩
  split at h
  case isTrue ho => cases h; exact ⟨.err .busError, ho, rfl⟩
  case isFalse => cases h

theorem eq_of_decodeReadOutcome {o : Byte} {blank : Bool} {good i : Instr} {bad : Cause → Instr}
    (h : decodeReadOutcome o blank good bad = .ok i) :
    (o = 0#8 ∧ i = good) ∨ ∃ c, c.onRead = true ∧ o = outcomeByte c ∧ blank = true ∧ i = bad c := by
  unfold decodeReadOutcome at h
  split at h
  case isTrue ho => cases h; exact .inl ⟨ho, rfl⟩
  split at h
  case isTrue => cases h
  split at h
  case isTrue ho =>
    split at h
    case isTrue hb => cases h; exact .inr ⟨.addrNack, rfl, ho, hb, rfl⟩
    case isFalse => cases h
  split at h
  case isTrue ho =>
    split at h
    case isTrue hb => cases h; exact .inr ⟨.busError, rfl, ho, hb, rfl⟩
    case isFalse => cases h
  case isFalse => cases h

theorem meaningOf_decodeWriteFrame {bytes : List Byte} {i : Instr} (h : decodeWriteFrame bytes = .ok i) :
    MeaningOf .i2cWrite bytes i := by
  unfold decodeWriteFrame at h
  split at h
  case h_1 o a b =>
    split at h
    case isFalse => cases h
    case isTrue hf =>
      obtain ⟨rfl, rfl⟩ := hf
      obtain ⟨ans, rfl, rfl⟩ := eq_of_decodeWriteOutcome h
      exact ⟨rfl, rfl, rfl⟩
  case h_2 o a b0 b1 b2 =>
    split at h
    case isFalse => cases h
    case isTrue hf =>
      obtain ⟨rfl, hb⟩ := hf
      obtain ⟨ans, rfl, rfl⟩ := eq_of_decodeWriteOutcome h
      exact ⟨congrArg ([writeOutcomeByte ans, Machine.writeAddrByte] ++ ·) hb.symm, rfl, rfl⟩
  case h_3 => cases h

theorem meaningOf_decodeReadFrame {bytes : List Byte} {i : Instr} (h : decodeReadFrame bytes = .ok i) :
    MeaningOf .i2cRead bytes i := by
  unfold decodeReadFrame at h
  split at h
  case h_1 o a st =>
    split at h
    case isFalse => cases h
    case isTrue hf =>
      subst hf
      rcases eq_of_decodeReadOutcome h with ⟨rfl, rfl⟩ | ⟨c, hc, rfl, hb, rfl⟩
      · exact ⟨rfl, rfl, rfl⟩
      · exact ⟨by rw [of_decide_eq_true hb]; rfl, rfl, hc⟩
  case h_2 o a d0 d1 d2 d3 d4 d5 =>
    split at h
    case isFalse => cases h
    case isTrue hf =>
      subst hf
      rcases eq_of_decodeReadOutcome h with ⟨rfl, rfl⟩ | ⟨c, hc, rfl, hb, rfl⟩
      · exact ⟨rfl, rfl, rfl⟩
      · exact ⟨by rw [of_decide_eq_true hb]; rfl, rfl, hc⟩
  case h_3 => cases h

/-! ### Datapath words -/

/-- A 20-bit code in three bytes, the four bits above it zero. -/
theorem beBytes_code {c : BitVec 20} {b0 b1 b2 : Byte} (h0 : b0.extractLsb' 4 4 = 0#4)
    (hc : c = b0.extractLsb' 0 4 ++ b1 ++ b2) : Machine.beBytes 3 c.toNat = [b0, b1, b2] := by
  have hhigh : b0.toNat / 2 ^ 4 = 0 := by
    have := congrArg BitVec.toNat h0
    rw [BitVec.extractLsb'_toNat, Nat.shiftRight_eq_div_pow] at this
    simp at this; omega
  rw [← Machine.beBytes_append3, hc]
  congr 1
  simp only [Machine.toNat_append_eq_add, BitVec.extractLsb'_toNat, Nat.shiftRight_zero]
  omega

theorem exists_code_bytes (c : BitVec 20) :
    ∃ b0 b1 b2 : Byte, b0.extractLsb' 4 4 = 0#4 ∧ c = b0.extractLsb' 0 4 ++ b1 ++ b2 := by
  obtain ⟨w, b2, h2⟩ := Machine.exists_append_byte (n := 12) c
  obtain ⟨x, b1, h1⟩ := Machine.exists_append_byte (n := 4) w
  refine ⟨0#4 ++ x, b1, b2, BitVec.extractLsb'_append_eq_left, ?_⟩
  rw [BitVec.extractLsb'_append_eq_right, h2, h1]

theorem decode_of_code (c : BitVec 20) (mk : BitVec 20 → Instr) : ∃ b0 b1 b2 : Byte,
    Machine.beBytes 3 c.toNat = [b0, b1, b2] ∧ decodeCode b0 b1 b2 mk = .ok (mk c) := by
  obtain ⟨b0, b1, b2, h0, hc⟩ := exists_code_bytes c
  exact ⟨b0, b1, b2, beBytes_code h0 hc, by rw [decodeCode, if_pos h0, ← hc]⟩

theorem eq_of_decodeCode {b0 b1 b2 : Byte} {mk : BitVec 20 → Instr} {i : Instr} (h : decodeCode b0 b1 b2 mk = .ok i) :
    ∃ c, i = mk c ∧ Machine.beBytes 3 c.toNat = [b0, b1, b2] := by
  unfold decodeCode at h
  split at h
  case isFalse => cases h
  case isTrue h0 => cases h; exact ⟨_, rfl, beBytes_code h0 rfl⟩

theorem eq_of_decodeResult {α : Type} {operand : Option α} {mk : α → Instr} {i : Instr}
    (h : decodeResult operand mk = .ok i) : ∃ x, operand = some x ∧ i = mk x := by
  cases operand with
  | none => cases h
  | some x => cases h; exact ⟨x, rfl, rfl⟩

theorem meaningOf_decodeDatapath {op : DatapathOp} {bytes : List Byte} {i : Instr}
    (h : decodeDatapath op bytes = .ok i) : MeaningOf (.datapath op) bytes i := by
  unfold decodeDatapath at h
  split at h
  case h_1 => cases h; exact ⟨rfl, rfl, rfl⟩
  case h_2 | h_3 => cases h; exact ⟨Machine.beBytes_append5 .., rfl, rfl⟩
  case h_4 | h_5 => obtain ⟨c, rfl, hc⟩ := eq_of_decodeCode h; exact ⟨hc, rfl, rfl⟩
  case h_6 =>
    obtain ⟨m, hm, rfl⟩ := eq_of_decodeResult h
    obtain ⟨hlt, hw⟩ := Machine.f64_of_f64Operand hm
    exact ⟨by rw [encode, hw, Machine.beBytes_append8], rfl, decide_eq_true hlt⟩
  case h_7 =>
    obtain ⟨c, hc, rfl⟩ := eq_of_decodeResult h
    exact ⟨by rw [encode, Machine.convHum64_of_operand hc, Machine.beBytes_append8], rfl, rfl⟩
  case h_8 =>
    obtain ⟨c, hc, rfl⟩ := eq_of_decodeResult h
    exact ⟨by rw [encode, Machine.convTemp64_of_operand hc, Machine.beBytes_append8], rfl, rfl⟩
  case h_9 => cases h

/-- What bytes decode to is their one meaning. -/
theorem meaningOf_decode {f : Format} {bytes : List Byte} {i : Instr} (h : decode f bytes = .ok i) :
    MeaningOf f bytes i := by
  unfold decode at h
  split at h
  case h_1 b0 b1 b2 b3 => cases h; exact Machine.leBytes_leWord b0 b1 b2 b3 ▸ meaningOf_decodeCommand _
  case h_2 b0 b1 b2 b3 => exact Machine.leBytes_leWord b0 b1 b2 b3 ▸ meaningOf_decodeStatusWrite h
  case h_3 b0 b1 b2 b3 => cases h; exact Machine.leBytes_leWord b0 b1 b2 b3 ▸ meaningOf_decodeIntEn _
  case h_4 => exact meaningOf_decodeWriteFrame h
  case h_5 => exact meaningOf_decodeReadFrame h
  case h_6 => exact meaningOf_decodeDatapath h
  case h_7 => cases h

/-- Settles O57: in each format the decoder answers only instructions that encode back to the bytes. -/
theorem encodeOfDecode : Obligations.EncodeOfDecode := fun _ _ _ h =>
  have hm := meaningOf_decode h
  ⟨hm.encodes, hm.format, hm.wellFormed⟩

/-! ### Encoded instructions -/

theorem decode_encode_f64 {m : Int} (hm : m.natAbs < 2 ^ 52) :
    decode (.datapath .f64) (encode (.f64 m)) = .ok (.f64 m) := by
  obtain ⟨b0, b1, b2, b3, b4, b5, b6, b7, hw⟩ := Machine.exists_bytes8 (Machine.f64 m)
  rw [encode, hw, Machine.beBytes_append8]
  simp only [decode, decodeDatapath, ← hw, Machine.f64Operand_f64 hm, decodeResult]

theorem decode_encode_convHum64 (c : BitVec 20) :
    decode (.datapath .convHum64) (encode (.convHum64 c)) = .ok (.convHum64 c) := by
  obtain ⟨b0, b1, b2, b3, b4, b5, b6, b7, hw⟩ := Machine.exists_bytes8 (Machine.convHum64 c)
  rw [encode, hw, Machine.beBytes_append8]
  simp only [decode, decodeDatapath, ← hw, Machine.convHum64Operand_convHum64, decodeResult]

theorem decode_encode_convTemp64 (c : BitVec 20) :
    decode (.datapath .convTemp64) (encode (.convTemp64 c)) = .ok (.convTemp64 c) := by
  obtain ⟨b0, b1, b2, b3, b4, b5, b6, b7, hw⟩ := Machine.exists_bytes8 (Machine.convTemp64 c)
  rw [encode, hw, Machine.beBytes_append8]
  simp only [decode, decodeDatapath, ← hw, Machine.convTemp64Operand_convTemp64, decodeResult]

/-- Settles O56: each row by the inverse of its fields; a bus row has finitely many outcomes before its device bytes. -/
theorem decodeOfEncode : Obligations.DecodeOfEncode := by
  intro i hi
  cases i with
  | nop ign | init ign | measure ign | read ign | rsvd4 ign | rsvd5 ign | rsvd6 ign | rsvd7 ign =>
    rw [formatOf, encode, decode_hcmd, decodeCommand, commandWord_code, commandWord_ignored]; rfl
  | ackDone clrRej ign0 ign => rw [formatOf, encode, decode_hstw, decodeStatusWrite_statusWriteWord]; rfl
  | ackRej clrDone ign0 ign =>
    obtain rfl : clrDone = false := by simpa [Instr.wellFormed] using hi
    rw [formatOf, encode, decode_hstw, decodeStatusWrite_statusWriteWord]; rfl
  | wrIntEn doneIe rejIe ign => rw [formatOf, encode, decode_hiew, decodeIntEn_intEnWriteWord]
  | wrSoftreset a => exact decodeWriteOutcome_writeOutcomeByte a _
  | wrTrigger a => exact decodeWriteOutcome_writeOutcomeByte a _
  | rdStatus a =>
    cases a with
    | ok st => rfl
    | err c =>
      cases c with
      | addrNack | busError => rfl
      | dataNack => cases hi
  | rdSample a =>
    cases a with
    | ok d => rfl
    | err c =>
      cases c with
      | addrNack | busError => rfl
      | dataNack => cases hi
  | extract d1 d2 d3 d4 d5 => rfl
  | extractHum f40 | extractTemp f40 =>
    obtain ⟨b0, b1, b2, b3, b4, rfl⟩ := Machine.exists_bytes5 f40
    rw [formatOf, encode, Machine.beBytes_append5]; rfl
  | convHum c | convTemp c =>
    obtain ⟨b0, b1, b2, hb, hd⟩ := decode_of_code c _
    rw [formatOf, encode, hb]; exact hd
  | f64 m => exact decode_encode_f64 (of_decide_eq_true hi)
  | convHum64 c => exact decode_encode_convHum64 c
  | convTemp64 c => exact decode_encode_convTemp64 c

end Sys2Proof

/-! ### What the two polls leave unchanged: R138, R145 -/

namespace Sys2Proof.Machine

section

variable (st : Byte) (s : State)

/-- The calibration poll on a byte changes only DEVSTAT, CAL_OK, ERROR, the flags of a command's end and the
sequencer. -/
theorem calReadStep_frame : ∃ calOk err busy done seq wait expired inFlight answer,
    calReadStep (.ok st) s = { s with
      devstat := st, calOk := calOk, err := err, busy := busy, done := done, seq := seq, wait := wait,
      expired := expired, inFlight := inFlight, answer := answer } := by
  rcases calReadStep_ok (st := st) (s := s) rfl with
    ⟨-, -, ht⟩ | ⟨-, -, ht⟩ | ⟨-, -, -, ht⟩ | ⟨-, -, ht⟩ | ⟨-, -, ht⟩ <;>
    exact ⟨_, _, _, _, _, _, _, _, _, ht⟩

/-- The busy poll on a byte changes only DEVSTAT, ERROR, the flags of a command's end and the
sequencer. -/
theorem busyReadStep_frame : ∃ err busy done seq wait expired inFlight answer,
    busyReadStep (.ok st) s = { s with
      devstat := st, err := err, busy := busy, done := done, seq := seq, wait := wait, expired := expired,
      inFlight := inFlight, answer := answer } := by
  rcases busyReadStep_ok (st := st) (s := s) rfl with ⟨-, ht⟩ | ⟨-, -, ht⟩ | ⟨-, -, ht⟩ <;>
    exact ⟨_, _, _, _, _, _, _, _, ht⟩

theorem calReadStep_devstat : (calReadStep (.ok st) s).devstat = st := by
  obtain ⟨_, _, _, _, _, _, _, _, _, h⟩ := calReadStep_frame st s; rw [h]

theorem busyReadStep_devstat : (busyReadStep (.ok st) s).devstat = st := by
  obtain ⟨_, _, _, _, _, _, _, _, h⟩ := busyReadStep_frame st s; rw [h]

theorem busyReadStep_calOk : (busyReadStep (.ok st) s).calOk = s.calOk := by
  obtain ⟨_, _, _, _, _, _, _, _, h⟩ := busyReadStep_frame st s; rw [h]

/-- The fields of which a step says the same whichever poll it was. -/
structure PollFrame (s t : State) : Prop where
  res : t.res = s.res
  valid : t.valid = s.valid
  rej : t.rej = s.rej
  doneIe : t.doneIe = s.doneIe
  rejIe : t.rejIe = s.rejIe
  reply : t.reply = s.reply
  curCmd : t.curCmd = s.curCmd
  calPolls : t.calPolls = s.calPolls
  busyPolls : t.busyPolls = s.busyPolls
  history : t.history = s.history

theorem calReadStep_keeps : PollFrame s (calReadStep (.ok st) s) := by
  obtain ⟨_, _, _, _, _, _, _, _, _, h⟩ := calReadStep_frame st s
  rw [h]; exact ⟨rfl, rfl, rfl, rfl, rfl, rfl, rfl, rfl, rfl, rfl⟩

theorem busyReadStep_keeps : PollFrame s (busyReadStep (.ok st) s) := by
  obtain ⟨_, _, _, _, _, _, _, _, h⟩ := busyReadStep_frame st s
  rw [h]; exact ⟨rfl, rfl, rfl, rfl, rfl, rfl, rfl, rfl, rfl, rfl⟩

end

end Sys2Proof.Machine

/-! ### Each register changes only in the steps its rule names: 10_state.md -/

namespace Sys2Proof.Machine

variable {s t : State} {e : Event}

/-! ### The result registers: 10_state.md section 8 -/

theorem move_changes_res (hm : Move s e t) (h : t.res ≠ s.res) :
    (t.res = Results.zero ∧ (e = .blockReset ∨ (s.seq = .idle ∧ t.busy = true ∧ ∃ v, e = .hostWrite 0x00#6 4 v))) ∨
    (s.seq = .dataRd ∧ t.seq = .idle ∧ t.valid = true ∧ t.done = true ∧
      ∃ data, s.answer = some (.ok data) ∧ e = .sequencer) := by
  cases hm with
  | acceptCmd v c hv hs hc => exact .inl ⟨rfl, .inr ⟨hs, rfl, v, rfl⟩⟩
  | reset => exact .inl ⟨rfl, .inl rfl⟩
  | sampleRead d hs ha => exact .inr ⟨hs, rfl, rfl, rfl, d.bytes, ha, rfl⟩
  | calRead st hs ha => exact absurd (calReadStep_keeps st s).res h
  | busyRead st hs ha => exact absurd (busyReadStep_keeps st s).res h
  | _ => exact absurd rfl h

/-- Settles O35: of the moves only acceptance, reset and the commit write the result registers. -/
theorem resultsChangeOnlyAtCommitOrAcceptance : Obligations.ResultsChangeOnlyAtCommitOrAcceptance := by
  intro s t hstep h
  rcases step_next_cases hstep with ⟨-, rfl⟩ | ⟨e, rest, hsch, hm⟩
  · exact absurd rfl h
  rcases move_changes_res hm h with ⟨hz, rfl | ⟨hs, hb, v, rfl⟩⟩ | ⟨hs, hi, hv, hd, data, ha, rfl⟩
  · exact .inl ⟨hz, .inl ⟨rest, hsch⟩⟩
  · exact .inl ⟨hz, .inr ⟨hs, hb, v, rest, hsch⟩⟩
  · exact .inr ⟨hs, hi, hv, hd, data, rest, ha, hsch⟩

/-! ### ERROR: 10_state.md section 4, R192, R197 -/

/-- `t` is `s` after the end of a command in error: the record names the state, and nothing else of the registers has
changed but DEVSTAT, BUSY and DONE. -/
structure EndsInError (s t : State) : Prop where
  flag : errFlag t = true
  phase : t.err.phase = s.seq
  seq : t.seq = .idle
  busy : t.busy = false
  done : t.done = true
  valid : t.valid = s.valid
  res : t.res = s.res
  calPolls : t.calPolls = s.calPolls
  busyPolls : t.busyPolls = s.busyPolls
  calOk : t.calOk = s.calOk
  curCmd : t.curCmd = s.curCmd
  rej : t.rej = s.rej
  doneIe : t.doneIe = s.doneIe
  rejIe : t.rejIe = s.rejIe

theorem endsInError_fail (s : State) {k : ErrKind} (hk : k ≠ .noError) (c : Option Cause) (devstat : Byte)
    (sample : Sample) (draws : Nat) :
    EndsInError s (fail k c s.seq { s with devstat := devstat, sample := sample, draws := draws }) :=
  ⟨by rw [← Bool.not_eq_false, errFlag_eq_false_iff]; exact hk, rfl, rfl, rfl, rfl, rfl, rfl, rfl, rfl, rfl, rfl, rfl,
    rfl, rfl⟩

theorem move_changes_err (hm : Move s e t) (h : t.err ≠ s.err) :
    (t.err = ErrorReg.zero ∧ (e = .blockReset ∨ (s.seq = .idle ∧ t.busy = true ∧ ∃ v, e = .hostWrite 0x00#6 4 v))) ∨
    EndsInError s t := by
  cases hm with
  | acceptCmd v c hv hs hc => exact .inl ⟨rfl, .inr ⟨hs, rfl, v, rfl⟩⟩
  | reset => exact .inl ⟨rfl, .inl rfl⟩
  | commFailed f c hs ha hn hc => exact .inr (endsInError_fail s (by decide) _ _ _ _)
  | sampleFailed c hs ha hc => exact .inr (hs ▸ endsInError_fail s (by decide) _ _ _ _)
  | calRead st hs ha =>
    generalize ht : calReadStep (.ok st) s = t at *
    rcases calReadStep_ok ht with ⟨-, -, rfl⟩ | ⟨-, -, rfl⟩ | ⟨-, -, -, rfl⟩ | ⟨-, -, rfl⟩ | ⟨-, -, rfl⟩
    · exact absurd rfl h
    · exact absurd rfl h
    · exact absurd rfl h
    · exact absurd rfl h
    · exact .inr (hs ▸ endsInError_fail s (k := .calFailed) (by decide) none st _ _)
  | busyRead st hs ha =>
    generalize ht : busyReadStep (.ok st) s = t at *
    rcases busyReadStep_ok ht with ⟨-, rfl⟩ | ⟨-, -, rfl⟩ | ⟨-, -, rfl⟩
    · exact absurd rfl h
    · exact absurd rfl h
    · exact .inr (hs ▸ endsInError_fail s (k := .stillBusy) (by decide) none st _ _)
  | _ => exact absurd rfl h

/-- Settles O36: ERROR is written by acceptance, reset and `fail`, and the last ends the command in the
failing state. -/
theorem errorChangesOnlyAtFailureOrAcceptance : Obligations.ErrorChangesOnlyAtFailureOrAcceptance := by
  intro s t hstep h
  rcases step_next_cases hstep with ⟨-, rfl⟩ | ⟨e, rest, hsch, hm⟩
  · exact absurd rfl h
  rcases move_changes_err hm h with ⟨hz, rfl | ⟨hs, hb, v, rfl⟩⟩ | hf
  · exact .inl ⟨hz, .inl ⟨rest, hsch⟩⟩
  · exact .inl ⟨hz, .inr ⟨hs, hb, v, rest, hsch⟩⟩
  · exact .inr ⟨hf.flag, hf.phase, hf.seq, hf.busy, hf.done, hf.valid, hf.res, hf.calPolls, hf.busyPolls, hf.calOk,
      hf.curCmd, hf.rej, hf.doneIe, hf.rejIe⟩

end Sys2Proof.Machine

/-! ### The sequencer's moves: R36, R130, R151 -/

namespace Sys2Proof.Machine

variable {s t : State} {e : Event}

theorem calReadStep_edge (st : Byte) (hs : s.seq = .calRd) :
    (calReadStep (.ok st) s).seq = s.seq ∨ (calReadStep (.ok st) s).seq ∈ s.seq.successors := by
  rcases calReadStep_ok (st := st) (s := s) rfl with
    ⟨-, -, ht⟩ | ⟨-, -, ht⟩ | ⟨-, -, -, ht⟩ | ⟨-, -, ht⟩ | ⟨-, -, ht⟩ <;> simp [ht, hs, SeqState.successors]

theorem busyReadStep_edge (st : Byte) (hs : s.seq = .busyRd) : (busyReadStep (.ok st) s).seq ∈ s.seq.successors := by
  rcases busyReadStep_ok (st := st) (s := s) rfl with ⟨-, ht⟩ | ⟨-, -, ht⟩ | ⟨-, -, ht⟩ <;>
    simp [ht, hs, SeqState.successors]

/-- A poll enters no wait that has expired. -/
theorem expired_of_calReadStep {st : Byte} (h : (calReadStep (.ok st) s).expired = true) : s.expired = true := by
  rcases calReadStep_ok (st := st) (s := s) rfl with
    ⟨-, -, ht⟩ | ⟨-, -, ht⟩ | ⟨-, -, -, ht⟩ | ⟨-, -, ht⟩ | ⟨-, -, ht⟩ <;> simp [ht] at h
  exact h

theorem busyReadStep_expired (st : Byte) (s : State) : (busyReadStep (.ok st) s).expired = false := by
  rcases busyReadStep_ok (st := st) (s := s) rfl with ⟨-, ht⟩ | ⟨-, -, ht⟩ | ⟨-, -, ht⟩ <;> simp [ht]

/-- Every state with a transaction can end the command. -/
theorem idle_mem_successors {q : SeqState} {f : Frame} (h : q.frame = some f) :
    SeqState.idle ∈ q.successors := by
  cases q <;> cases h <;> decide

/-- The sequencer moves along the edges of its state machine, or a block reset takes it to IDLE. -/
theorem move_edge (hm : Move s e t) :
    t.seq = s.seq ∨ t.seq ∈ s.seq.successors ∨ (t.seq = .idle ∧ e = .blockReset) := by
  cases hm with
  | acceptCmd v c hv hs hc => exact .inr (.inl (by cases c <;> simp [hs, SeqState.successors, Cmd.start]))
  | softResetAck hs ha | triggerAck hs ha | sampleRead d hs ha | sampleFailed c hs ha hc =>
    exact .inr (.inl (by simp [hs, SeqState.successors]))
  | calWaitOver hs he | busyWaitOver hs he =>
    exact .inr (.inl (by rcases hs with hs | hs <;> simp [hs, SeqState.successors]))
  | calRead st hs ha => exact (calReadStep_edge st hs).imp_right .inl
  | busyRead st hs ha => exact .inr (.inl (busyReadStep_edge st hs))
  | commFailed f c hs ha hn hc => exact .inr (.inl (idle_mem_successors hs))
  | reset => exact .inr (.inr ⟨rfl, rfl⟩)
  | _ => exact .inl rfl

/-- Settles O21: the edges of every move. -/
theorem sequencerEdges : Obligations.SequencerEdges := by
  intro s t hstep
  rcases step_next_cases hstep with ⟨-, rfl⟩ | ⟨e, rest, hsch, hm⟩
  · exact .inl rfl
  rcases move_edge hm with h | h | ⟨h, rfl⟩
  · exact .inl h
  · exact .inr (.inl h)
  · exact .inr (.inr ⟨h, rest, hsch⟩)

/-- The sequencer's step does something only once the action of its state has completed (R130). -/
theorem move_sequencer (hm : Move s .sequencer t) : t = s ∨ actionCompleted s = true := by
  cases hm with
  | notCompleted h => exact .inl rfl
  | softResetAck hs ha | triggerAck hs ha | calRead st hs ha | busyRead st hs ha | sampleRead d hs ha
  | sampleFailed c hs ha hc => exact .inr (by simp [actionCompleted, hs, ha, SeqState.frame])
  | commFailed f c hs ha hn hc => exact .inr (by simp only [actionCompleted, hs, ha]; rfl)
  | calWaitOver hs he | busyWaitOver hs he =>
    exact .inr (by rcases hs with hs | hs <;> simp [actionCompleted, hs, he, SeqState.delay])

/-- IDLE is left only by an accepted command (R100). -/
theorem move_leaves_idle (hm : Move s e t) (hs : s.seq = .idle) (ht : t.seq ≠ .idle) :
    ∃ v c, e = .hostWrite 0x00#6 4 v ∧ (c = .measure → s.calOk = true) ∧ t = accept c (written s) := by
  have hnone : actionCompleted s = false := by simp [actionCompleted, hs, SeqState.frame, SeqState.delay]
  have hstay : e = .sequencer → False := by
    rintro rfl
    rcases move_sequencer hm with rfl | h
    · exact ht hs
    · rw [hnone] at h; cases h
  cases hm with
  | acceptCmd v c hv hs hc => exact ⟨v, c, rfl, hc, rfl⟩
  | reset => exact absurd rfl ht
  | softResetAck | triggerAck | calRead | busyRead | sampleRead | sampleFailed | commFailed | calWaitOver |
    busyWaitOver =>
    exact (hstay rfl).elim
  | _ => exact absurd hs ht

/-- Any other state is left only by the sequencer's step on its completed action, or by a block reset. -/
theorem move_leaves_busy (hm : Move s e t) (hs : s.seq ≠ .idle) (ht : t.seq ≠ s.seq) :
    e = .blockReset ∨ (e = .sequencer ∧ actionCompleted s = true) := by
  have hstep : e = .sequencer → e = .blockReset ∨ (e = .sequencer ∧ actionCompleted s = true) := by
    rintro rfl
    rcases move_sequencer hm with rfl | h
    · exact absurd rfl ht
    · exact .inr ⟨rfl, h⟩
  cases hm with
  | acceptCmd v c hv hidle hc => exact absurd hidle hs
  | reset => exact .inl rfl
  | softResetAck | triggerAck | calRead | busyRead | sampleRead | sampleFailed | commFailed | calWaitOver |
    busyWaitOver =>
    exact hstep rfl
  | _ => exact absurd rfl ht

/-- An answer comes only from the oracle. -/
theorem move_answers (hi : Inv s) (hm : Move s e t) (hs : s.answer = none) (ht : t.answer ≠ none) :
    s.inFlight = s.seq.frame ∧ s.inFlight ≠ none ∧ ∃ a, e = .busAnswer a ∧ t.answer = some a := by
  cases hm with
  | received f a hf ha =>
    have hn : s.inFlight ≠ none := by simp [hf]
    exact ⟨(inFlight_eq_frame hi hn).1, hn, a, rfl, rfl⟩
  | calRead st hq ha => rw [hs] at ha; cases ha
  | busyRead st hq ha => rw [hs] at ha; cases ha
  | acceptCmd | softResetAck | triggerAck | sampleRead | sampleFailed | commFailed | calWaitOver | busyWaitOver |
    reset =>
    exact absurd rfl ht
  | _ => exact absurd hs ht

/-- An expiry comes only from the timer. -/
theorem move_expires (hi : Inv s) (hm : Move s e t) (hs : s.expired = false) (ht : t.expired = true) :
    s.wait = s.seq.delay ∧ s.wait ≠ none ∧ e = .timerExpires := by
  have hsame : t.expired ≠ s.expired := by rw [hs, ht]; decide
  cases hm with
  | waitExpired hw => exact ⟨(wait_eq_delay hi hw).1, hw, rfl⟩
  | calRead st hq ha => rw [expired_of_calReadStep ht] at hs; cases hs
  | busyRead st hq ha => rw [busyReadStep_expired] at ht; cases ht
  | acceptCmd | softResetAck | triggerAck | sampleRead | sampleFailed | commFailed | calWaitOver | busyWaitOver |
    reset =>
    cases ht
  | _ => exact absurd rfl hsame

/-- Settles O20: which moves leave IDLE, leave another state, answer, and expire; an enabled sequencer's step has its
transaction answered or its wait expired (R130). -/
theorem sequencerMovesOnlyByItsAction : Obligations.SequencerMovesOnlyByItsAction := by
  intro s t hi hstep
  rcases step_next_cases hstep with ⟨-, rfl⟩ | ⟨e, rest, hsch, hm⟩
  · exact ⟨fun h => absurd rfl h, fun h => absurd rfl h, fun h h' => absurd h h', fun h h' => by rw [h] at h'; cases h'⟩
  have hi' := inv_schedule hi rest
  refine ⟨fun h hs => ?_, fun h hs => ?_, fun hs ht => ?_, fun hs ht => ?_⟩
  · obtain ⟨v, c, rfl, -, -⟩ := move_leaves_idle hm hs (hs ▸ h)
    exact ⟨v, rest, hsch⟩
  · rcases move_leaves_busy hm hs h with rfl | ⟨rfl, hc⟩
    · exact .inl ⟨rest, hsch⟩
    · refine .inr ⟨⟨rest, hsch⟩, ?_⟩
      simpa [actionCompleted, Option.isSome_iff_ne_none] using hc
  · obtain ⟨hf, hn, a, rfl, ha⟩ := move_answers hi' hm hs ht
    exact ⟨hf, hn, a, rest, hsch, ha⟩
  · obtain ⟨hw, hn, rfl⟩ := move_expires hi' hm hs ht
    exact ⟨hw, hn, rest, hsch⟩

end Sys2Proof.Machine

/-! ### The STATUS flags: 10_state.md section 3 -/

namespace Sys2Proof.Machine

variable {s t : State} {e : Event}

/-! ### CAL_OK: R28 -/

theorem calReadStep_calOk {st : Byte} (h : (calReadStep (.ok st) s).calOk ≠ s.calOk) :
    (calReadStep (.ok st) s).calOk = true ∧ st.getLsbD 3 = true := by
  rcases calReadStep_ok (st := st) (s := s) rfl with
    ⟨hb, -, ht⟩ | ⟨hb, -, ht⟩ | ⟨hb, -, -, ht⟩ | ⟨-, -, ht⟩ | ⟨-, -, ht⟩ <;> rw [ht] at h ⊢
  · exact ⟨rfl, hb⟩
  · exact ⟨rfl, hb⟩
  · exact ⟨rfl, hb⟩
  · exact absurd rfl h
  · exact absurd rfl h

theorem move_changes_calOk (hm : Move s e t) (h : t.calOk ≠ s.calOk) :
    (t.calOk = true ∧ s.seq = .calRd ∧ ∃ st, s.answer = some (.ok [st]) ∧ e = .sequencer ∧ st.getLsbD 3 = true) ∨
    (t.calOk = false ∧ (e = .blockReset ∨
      (s.seq = .idle ∧ t.seq = .resetWr ∧ (t.curCmd = some .init ∨ t.curCmd = some .read)))) := by
  cases hm with
  | acceptCmd v c hv hs hc =>
    cases c with
    | init => exact .inr ⟨rfl, .inr ⟨hs, rfl, .inl rfl⟩⟩
    | measure => exact absurd rfl h
    | read => exact .inr ⟨rfl, .inr ⟨hs, rfl, .inr rfl⟩⟩
  | calRead st hs ha => exact .inl ⟨(calReadStep_calOk h).1, hs, st, ha, rfl, (calReadStep_calOk h).2⟩
  | busyRead st hs ha => exact absurd (busyReadStep_calOk st s) h
  | reset => exact .inr ⟨rfl, .inl rfl⟩
  | _ => exact absurd rfl h

/-- Settles O37: the moves that change CAL_OK; a trigger entered from IDLE is an accepted MEASURE. -/
theorem calibrationFlagRule : Obligations.CalibrationFlagRule := by
  intro s t hstep
  rcases step_next_cases hstep with ⟨-, rfl⟩ | ⟨e, rest, hsch, hm⟩
  · exact ⟨fun h h' => absurd h' (by simp [h]), fun h h' => absurd h' (by simp [h]),
      fun h h' => absurd h' (by simp [h])⟩
  refine ⟨fun h h' => ?_, fun h h' => ?_, fun hs ht => ?_⟩
  · rcases move_changes_calOk hm (by simp [h, h']) with ⟨-, hs, st, ha, rfl, hb⟩ | ⟨hf, -⟩
    · exact ⟨hs, st, rest, ha, hsch, hb⟩
    · rw [h'] at hf; cases hf
  · rcases move_changes_calOk hm (by simp [h, h']) with ⟨hf, -⟩ | ⟨-, rfl | hacc⟩
    · rw [h'] at hf; cases hf
    · exact .inl ⟨rest, hsch⟩
    · exact .inr hacc
  · obtain ⟨v, c, -, hc, rfl⟩ := move_leaves_idle hm hs (by simp [ht])
    cases c with
    | measure => exact hc rfl
    | init => cases ht
    | read => cases ht

/-! ### DONE: R25 -/

/-- A poll's step ends the command with DONE set, or changes neither. -/
def EndsOrGoesOn (s t : State) : Prop :=
  (t.seq = .idle ∧ t.busy = false ∧ t.done = true) ∨ (t.seq ≠ .idle ∧ t.busy = s.busy ∧ t.done = s.done)

theorem calReadStep_endsOrGoesOn (st : Byte) (hs : s.seq = .calRd) : EndsOrGoesOn s (calReadStep (.ok st) s) := by
  rcases calReadStep_ok (st := st) (s := s) rfl with
    ⟨-, -, ht⟩ | ⟨-, -, ht⟩ | ⟨-, -, -, ht⟩ | ⟨-, -, ht⟩ | ⟨-, -, ht⟩ <;> simp [EndsOrGoesOn, ht, hs]

theorem busyReadStep_endsOrGoesOn (st : Byte) : EndsOrGoesOn s (busyReadStep (.ok st) s) := by
  rcases busyReadStep_ok (st := st) (s := s) rfl with ⟨-, ht⟩ | ⟨-, -, ht⟩ | ⟨-, -, ht⟩ <;> simp [EndsOrGoesOn, ht]

/-- Every sequencer's step of a running command. -/
theorem move_endsOrGoesOn (hm : Move s .sequencer t) (hs : s.seq ≠ .idle) : EndsOrGoesOn s t := by
  cases hm with
  | notCompleted => exact .inr ⟨hs, rfl, rfl⟩
  | softResetAck | triggerAck | calWaitOver | busyWaitOver => exact .inr ⟨by simp, rfl, rfl⟩
  | calRead st hq ha => exact calReadStep_endsOrGoesOn st hq
  | busyRead st hq ha => exact busyReadStep_endsOrGoesOn st
  | sampleRead | commFailed | sampleFailed => exact .inl ⟨rfl, rfl, rfl⟩

/-- A step that ends a command, but a block reset, is the sequencer's, and sets DONE. -/
theorem move_ends (hm : Move s e t) (hs : s.seq ≠ .idle) (ht : t.seq = .idle) (he : e ≠ .blockReset) :
    e = .sequencer ∧ t.done = true := by
  rcases move_leaves_busy hm hs (ht ▸ hs.symm) with h | ⟨rfl, -⟩
  · exact absurd h he
  rcases move_endsOrGoesOn hm hs with ⟨-, -, hd⟩ | ⟨hn, -⟩
  · exact ⟨rfl, hd⟩
  · exact absurd ht hn

theorem move_changes_done (hm : Move s e t) (h : t.done ≠ s.done) :
    (t.done = true ∧ s.seq ≠ .idle ∧ t.seq = .idle) ∨
    (t.done = false ∧ (e = .blockReset ∨ (s.seq = .idle ∧ t.seq ≠ .idle ∧ t.busy = true) ∨
      ∃ v, e = .hostWrite 0x04#6 4 v ∧ v.getLsbD 1 = true)) := by
  have hends : s.seq ≠ .idle → e = .sequencer →
      t.done = true ∧ s.seq ≠ .idle ∧ t.seq = .idle := by
    rintro hs rfl
    rcases move_endsOrGoesOn hm hs with ⟨hi, -, hd⟩ | ⟨-, -, hd⟩
    · exact ⟨hd, hs, hi⟩
    · exact absurd hd h
  cases hm with
  | acceptCmd v c hv hs hc => exact .inr ⟨rfl, .inr (.inl ⟨hs, by cases c <;> simp [Cmd.start], rfl⟩)⟩
  | statusWrite v =>
    have hb : v.getLsbD 1 = true := by
      rw [← Bool.not_eq_false]
      exact fun h0 => h (by rw [clearFlags_done, h0]; simp)
    exact .inr ⟨by rw [clearFlags_done, hb]; simp, .inr (.inr ⟨v, rfl, hb⟩)⟩
  | calRead st hs ha => exact .inl (hends (by simp [hs]) rfl)
  | busyRead st hs ha => exact .inl (hends (by simp [hs]) rfl)
  | sampleRead d hs ha => exact .inl (hends (by simp [hs]) rfl)
  | sampleFailed c hs ha hc => exact .inl (hends (by simp [hs]) rfl)
  | commFailed f c hs ha hn hc => exact .inl (hends (by intro h0; rw [h0] at hs; cases hs) rfl)
  | reset => exact .inr ⟨rfl, .inl rfl⟩
  | _ => exact absurd rfl h

/-- Settles O38: the moves that change DONE, and that the end of a command sets it. -/
theorem doneFlagRule : Obligations.DoneFlagRule := by
  intro s t hstep
  rcases step_next_cases hstep with ⟨-, rfl⟩ | ⟨e, rest, hsch, hm⟩
  · exact ⟨fun h h' => absurd h' (by simp [h]), fun h h' => absurd h' h, fun h h' => absurd h' (by simp [h])⟩
  refine ⟨fun h h' => ?_, fun hs ht hr => (move_ends hm hs ht ?_).2, fun h h' => ?_⟩
  · rcases move_changes_done hm (by simp [h, h']) with ⟨-, hends⟩ | ⟨hf, -⟩
    · exact hends
    · rw [h'] at hf; cases hf
  · rintro rfl; exact hr rest hsch
  · rcases move_changes_done hm (by simp [h, h']) with ⟨hf, -⟩ | ⟨-, rfl | hacc | ⟨v, rfl, hb⟩⟩
    · rw [h'] at hf; cases hf
    · exact .inl ⟨rest, hsch⟩
    · exact .inr (.inl hacc)
    · exact .inr (.inr ⟨v, rest, hsch, hb⟩)

/-! ### REJ: R26 -/

theorem move_changes_rej (hm : Move s e t) (h : t.rej ≠ s.rej) :
    (t.rej = true ∧ t.seq = s.seq ∧ ∃ v, e = .hostWrite 0x00#6 4 v ∧ v.extractLsb' 0 3 ≠ 0#3) ∨
    (t.rej = false ∧ (e = .blockReset ∨ ∃ v, e = .hostWrite 0x04#6 4 v ∧ v.getLsbD 2 = true)) := by
  cases hm with
  | rejectCmd v hv hr => exact .inl ⟨rfl, rfl, v, rfl, hv⟩
  | statusWrite v =>
    have hb : v.getLsbD 2 = true := by
      rw [← Bool.not_eq_false]
      exact fun h0 => h (by rw [clearFlags_rej, h0]; simp)
    exact .inr ⟨by rw [clearFlags_rej, hb]; simp, .inr ⟨v, rfl, hb⟩⟩
  | calRead st hs ha => exact absurd (calReadStep_keeps st s).rej h
  | busyRead st hs ha => exact absurd (busyReadStep_keeps st s).rej h
  | reset => exact .inr ⟨rfl, .inl rfl⟩
  | _ => exact absurd rfl h

/-- Settles O39: the moves that change REJ. -/
theorem rejectFlagRule : Obligations.RejectFlagRule := by
  intro s t hstep
  rcases step_next_cases hstep with ⟨-, rfl⟩ | ⟨e, rest, hsch, hm⟩
  · exact ⟨fun h h' => absurd h' (by simp [h]), fun h h' => absurd h' (by simp [h])⟩
  refine ⟨fun h h' => ?_, fun h h' => ?_⟩
  · rcases move_changes_rej hm (by simp [h, h']) with ⟨-, hseq, v, rfl, hv⟩ | ⟨hf, -⟩
    · exact ⟨v, rest, hsch, hv, hseq⟩
    · rw [h'] at hf; cases hf
  · rcases move_changes_rej hm (by simp [h, h']) with ⟨hf, -⟩ | ⟨-, rfl | ⟨v, rfl, hb⟩⟩
    · rw [h'] at hf; cases hf
    · exact .inl ⟨rest, hsch⟩
    · exact .inr ⟨v, rest, hsch, hb⟩

/-! ### VALID: R27 -/

theorem move_changes_valid (hm : Move s e t) (h : t.valid ≠ s.valid) :
    (t.valid = true ∧ s.seq = .dataRd ∧ ∃ d, s.answer = some (.ok d.bytes) ∧ e = .sequencer ∧ t = finish (commit d s)) ∨
    (t.valid = false ∧ (e = .blockReset ∨
      (s.seq = .idle ∧ t.busy = true ∧ t.res = Results.zero ∧ ∃ v, e = .hostWrite 0x00#6 4 v))) := by
  cases hm with
  | acceptCmd v c hv hs hc => exact .inr ⟨rfl, .inr ⟨hs, rfl, rfl, v, rfl⟩⟩
  | calRead st hs ha => exact absurd (calReadStep_keeps st s).valid h
  | busyRead st hs ha => exact absurd (busyReadStep_keeps st s).valid h
  | sampleRead d hs ha => exact .inl ⟨rfl, hs, d, ha, rfl, rfl⟩
  | reset => exact .inr ⟨rfl, .inl rfl⟩
  | _ => exact absurd rfl h

/-- Settles O40: the moves that change VALID; the one that sets it is the commit. -/
theorem validFlagRule : Obligations.ValidFlagRule := by
  intro s t hstep
  rcases step_next_cases hstep with ⟨-, rfl⟩ | ⟨e, rest, hsch, hm⟩
  · exact ⟨fun h h' => absurd h' (by simp [h]), fun h h' => absurd h' (by simp [h])⟩
  refine ⟨fun h h' => ?_, fun h h' => ?_⟩
  · rcases move_changes_valid hm (by simp [h, h']) with ⟨-, hs, d, ha, rfl, rfl⟩ | ⟨hf, -⟩
    · exact ⟨hs, rfl, rfl, d, rest, ha, hsch, rfl, rfl⟩
    · rw [h'] at hf; cases hf
  · rcases move_changes_valid hm (by simp [h, h']) with ⟨hf, -⟩ | ⟨-, rfl | ⟨hs, hb, hz, v, rfl⟩⟩
    · rw [h'] at hf; cases hf
    · exact .inl ⟨rest, hsch⟩
    · exact .inr ⟨hs, hb, hz, v, rest, hsch⟩

end Sys2Proof.Machine

/-! ### The other registers: DEVSTAT, the sample read, INT_EN, CUR_CMD, POLLS (R31, R35, R37, R44, R147) -/

namespace Sys2Proof.Machine

variable {s t : State} {e : Event}

/-! ### DEVSTAT: R37 -/

theorem move_changes_devstat (hm : Move s e t) (h : t.devstat ≠ s.devstat) :
    (t.devstat = 0#8 ∧ (e = .blockReset ∨ (s.seq = .idle ∧ t.busy = true))) ∨
    ((s.seq = .calRd ∨ s.seq = .busyRd) ∧ s.answer = some (.ok [t.devstat]) ∧ e = .sequencer) := by
  cases hm with
  | acceptCmd v c hv hs hc => exact .inl ⟨rfl, .inr ⟨hs, rfl⟩⟩
  | calRead st hs ha => exact .inr ⟨.inl hs, by rw [calReadStep_devstat]; exact ha, rfl⟩
  | busyRead st hs ha => exact .inr ⟨.inr hs, by rw [busyReadStep_devstat]; exact ha, rfl⟩
  | reset => exact .inl ⟨rfl, .inl rfl⟩
  | _ => exact absurd rfl h

/-- The sequencer's step on an answered transaction runs the answer's instruction. -/
theorem step_answered {f : Frame} {a : Answer} {rest : List Event} (hsch : s.schedule = .sequencer :: rest)
    (hf : s.seq.frame = some f) (ha : s.answer = some a) (hl : answerListed f a = true) :
    ∃ i, Answered f a i ∧ step s = exec i { s with schedule := rest } := by
  rw [step_cons hsch]
  exact sequencerStep_answered (s := { s with schedule := rest }) hf ha hl

theorem exec_rdStatus_devstat {st : Byte} (hs : s.seq = .calRd ∨ s.seq = .busyRd) (ha : s.answer = some (.ok [st]))
    (h : exec (.rdStatus (.ok st)) s = .next t) : t.devstat = st := by
  rcases hs with hs | hs
  · rw [exec_rdStatus_of_calRd (a := .ok st) hs ha] at h
    cases h; exact calReadStep_devstat st s
  · rw [exec_rdStatus_of_busyRd (a := .ok st) hs ha] at h
    cases h; exact busyReadStep_devstat st s

/-- The sequencer's step on a status read that has been answered by a byte writes it. -/
theorem devstat_of_statusRead {st : Byte} {rest : List Event} (hsch : s.schedule = .sequencer :: rest)
    (ha : s.answer = some (.ok [st])) (hs : s.seq = .calRd ∨ s.seq = .busyRd) (hstep : step s = .next t) :
    t.devstat = st := by
  have hf : s.seq.frame = some .rdStatus := by rcases hs with hs | hs <;> rw [hs] <;> rfl
  obtain ⟨i, hA, hexec⟩ := step_answered hsch hf ha rfl
  cases hA
  exact exec_rdStatus_devstat (s := { s with schedule := rest }) hs ha (hexec.symm.trans hstep)

/-- Settles O41: the moves that change DEVSTAT, and the answered status read's own step. -/
theorem deviceStatusRule : Obligations.DeviceStatusRule := by
  intro s t hstep
  refine ⟨fun h => ?_, fun st rest hsch ha hs => devstat_of_statusRead hsch ha hs hstep⟩
  rcases step_next_cases hstep with ⟨-, rfl⟩ | ⟨e, rest, hsch, hm⟩
  · exact absurd rfl h
  rcases move_changes_devstat hm h with ⟨hz, rfl | hacc⟩ | ⟨hs, ha, rfl⟩
  · exact .inl ⟨hz, .inl ⟨rest, hsch⟩⟩
  · exact .inl ⟨hz, .inr hacc⟩
  · exact .inr ⟨hs, ha, rest, hsch⟩

/-! ### The sample read: R147 -/

theorem move_enters_dataRd (hm : Move s e t) (hs : s.seq ≠ .dataRd) (ht : t.seq = .dataRd) :
    s.seq = .busyRd ∧ t.inFlight = some .rdSample ∧ t.wait = none ∧
      ∃ st, s.answer = some (.ok [st]) ∧ e = .sequencer ∧ st.getLsbD 7 = false ∧ t.devstat = st := by
  cases hm with
  | acceptCmd v c hv hq hc => cases c <;> cases ht
  | calRead st hq ha =>
    rcases calReadStep_edge st hq with h | h <;> rw [ht] at h
    · exact absurd h.symm hs
    · rw [hq] at h; exact absurd h (by decide)
  | busyRead st hq ha =>
    generalize hstep : busyReadStep (.ok st) s = t at *
    rcases busyReadStep_ok hstep with ⟨hb, rfl⟩ | ⟨-, -, rfl⟩ | ⟨-, -, rfl⟩
    · exact ⟨hq, rfl, rfl, st, ha, rfl, hb, rfl⟩
    · cases ht
    · cases ht
  | softResetAck | triggerAck | sampleRead | sampleFailed | commFailed | calWaitOver | busyWaitOver | reset => cases ht
  | _ => exact absurd ht hs

/-- Settles O42: the one move that enters DATA_RD. -/
theorem sampleReadFollowsReadyStatus : Obligations.SampleReadFollowsReadyStatus := by
  intro s t hstep hs ht
  rcases step_next_cases hstep with ⟨-, rfl⟩ | ⟨e, rest, hsch, hm⟩
  · exact absurd ht hs
  obtain ⟨hq, hf, hw, st, ha, rfl, hb, hd⟩ := move_enters_dataRd hm hs ht
  exact ⟨hq, hf, hw, st, rest, ha, hsch, hb, hd⟩

/-! ### INT_EN and CUR_CMD: R44, R31 -/

theorem move_changes_enables (hm : Move s e t) (he : e ≠ .blockReset)
    (h : t.doneIe ≠ s.doneIe ∨ t.rejIe ≠ s.rejIe) : ∃ v, e = .hostWrite 0x38#6 4 v := by
  have hsame : ¬ (t.doneIe = s.doneIe ∧ t.rejIe = s.rejIe) := by rwa [not_and_or]
  cases hm with
  | intEnWrite v => exact ⟨v, rfl⟩
  | calRead st hs ha => exact absurd ⟨(calReadStep_keeps st s).doneIe, (calReadStep_keeps st s).rejIe⟩ hsame
  | busyRead st hs ha => exact absurd ⟨(busyReadStep_keeps st s).doneIe, (busyReadStep_keeps st s).rejIe⟩ hsame
  | reset => exact absurd rfl he
  | _ => exact absurd ⟨rfl, rfl⟩ hsame

theorem move_changes_curCmd (hm : Move s e t) (he : e ≠ .blockReset) (h : t.curCmd ≠ s.curCmd) :
    s.seq = .idle ∧ t.busy = true ∧ (t.seq = .resetWr ∨ t.seq = .trigWr) := by
  cases hm with
  | acceptCmd v c hv hs hc => exact ⟨hs, rfl, by cases c <;> simp [Cmd.start]⟩
  | calRead st hs ha => exact absurd (calReadStep_keeps st s).curCmd h
  | busyRead st hs ha => exact absurd (busyReadStep_keeps st s).curCmd h
  | reset => exact absurd rfl he
  | _ => exact absurd rfl h

/-- Settles O43: the moves that change the enables and CUR_CMD. -/
theorem enablesAndCommandCodeRule : Obligations.EnablesAndCommandCodeRule := by
  intro s t hstep hr
  rcases step_next_cases hstep with ⟨-, rfl⟩ | ⟨e, rest, hsch, hm⟩
  · exact ⟨fun h => by simp at h, fun h => absurd rfl h⟩
  have he : e ≠ .blockReset := by rintro rfl; exact hr rest hsch
  refine ⟨fun h => ?_, move_changes_curCmd (s := { s with schedule := rest }) hm he⟩
  obtain ⟨v, rfl⟩ := move_changes_enables hm he h
  exact ⟨v, rest, hsch⟩

/-! ### POLLS: R35 -/

theorem move_calPolls (hi : Inv s) (hm : Move s e t) : t.calPolls = s.calPolls ∨ t.calPolls = 0#4 ∨
    (t.calPolls.toNat = s.calPolls.toNat + 1 ∧ t.seq = .calRd ∧ s.seq ≠ .calRd) := by
  cases hm with
  | acceptCmd | reset => exact .inr (.inl rfl)
  | calWaitOver hs he =>
    exact .inr (.inr ⟨(calPolls_succ hi hs).2, rfl, by rcases hs with hs | hs <;> simp [hs]⟩)
  | calRead st hs ha => exact .inl (calReadStep_keeps st s).calPolls
  | busyRead st hs ha => exact .inl (busyReadStep_keeps st s).calPolls
  | _ => exact .inl rfl

theorem move_busyPolls (hi : Inv s) (hm : Move s e t) : t.busyPolls = s.busyPolls ∨ t.busyPolls = 0#4 ∨
    (t.busyPolls.toNat = s.busyPolls.toNat + 1 ∧ t.seq = .busyRd ∧ s.seq ≠ .busyRd) := by
  cases hm with
  | acceptCmd | reset => exact .inr (.inl rfl)
  | busyWaitOver hs he =>
    exact .inr (.inr ⟨(busyPolls_succ hi hs).2, rfl, by rcases hs with hs | hs <;> simp [hs]⟩)
  | calRead st hs ha => exact .inl (calReadStep_keeps st s).busyPolls
  | busyRead st hs ha => exact .inl (busyReadStep_keeps st s).busyPolls
  | _ => exact .inl rfl

/-- Settles O44: the moves that change each counter. -/
theorem pollCountersRule : Obligations.PollCountersRule := by
  intro s t hi hstep
  rcases step_next_cases hstep with ⟨-, rfl⟩ | ⟨e, rest, -, hm⟩
  · exact ⟨.inl rfl, .inl rfl⟩
  · have hi' := inv_schedule hi rest
    exact ⟨move_calPolls (s := { s with schedule := rest }) hi' hm,
      move_busyPolls (s := { s with schedule := rest }) hi' hm⟩

/-! ### The history: R73, R90 -/

theorem move_history (hm : Move s e t) : t.history = s.history ∨ ∃ f, s.inFlight = some f ∧ t.inFlight = none ∧
    ((∃ a, e = .busAnswer a ∧ t.answer = some a ∧ t.history = { frame := f, result := a.result } :: s.history) ∨
      (e = .blockReset ∧ t.history = { frame := f, result := .abandoned } :: s.history)) := by
  cases hm with
  | received f a hf ha => exact .inr ⟨f, hf, rfl, .inl ⟨a, rfl, rfl, rfl⟩⟩
  | reset =>
    cases hf : s.inFlight with
    | none => exact .inl (by simp [blockReset, abandoned, hf])
    | some f => exact .inr ⟨f, rfl, rfl, .inr ⟨rfl, by simp [blockReset, abandoned, hf]⟩⟩
  | calRead st hs ha => exact .inl (calReadStep_keeps st s).history
  | busyRead st hs ha => exact .inl (busyReadStep_keeps st s).history
  | _ => exact .inl rfl

/-- Settles O45: only an answer and a block reset write the history. -/
theorem historyGrowsByTransactionInFlight : Obligations.HistoryGrowsByTransactionInFlight := by
  intro s t hstep
  rcases step_next_cases hstep with ⟨-, rfl⟩ | ⟨e, rest, hsch, hm⟩
  · exact .inl rfl
  rcases move_history hm with h | ⟨f, hf, hn, ⟨a, rfl, ha, hh⟩ | ⟨rfl, hh⟩⟩
  · exact .inl h
  · exact .inr ⟨f, rest, hf, hn, .inl ⟨a, hsch, ha, hh⟩⟩
  · exact .inr ⟨f, rest, hf, hn, .inr ⟨hsch, hh⟩⟩

end Sys2Proof.Machine

/-! ### Communication failures, answers off the list, block reset and irq: R46, R131, R190, R192, R220 -/

namespace Sys2Proof.Machine

variable {s t : State} {e : Event}

/-! ### A communication failure: R190, R192 -/

/-- The instruction of a failed transaction ends the command; a failed sample read forgets the capture buffer
as well. -/
theorem exec_err {f : Frame} {c : Cause} {i : Instr} (hA : Answered f (.err c) i) (hf : s.seq.frame = some f)
    (ha : s.answer = some (.err c)) : ∃ sample draws,
      exec i s = .next (fail .comm (some c) s.seq { s with sample := sample, draws := draws }) := by
  cases hq : s.seq <;> rw [hq] at hf <;> cases hf <;> cases hA
  case resetWr => exact ⟨_, _, exec_wrSoftreset_err hq ha⟩
  case calRd => exact ⟨_, _, exec_rdStatus_of_calRd (a := .err c) hq ha⟩
  case trigWr => exact ⟨_, _, exec_wrTrigger_err hq ha⟩
  case busyRd => exact ⟨_, _, exec_rdStatus_of_busyRd (a := .err c) hq ha⟩
  case dataRd => exact ⟨_, _, exec_rdSample_err hq ha⟩

/-- Settles O46: the step is `fail`, and a running command has VALID clear and no result (R51). -/
theorem communicationFailureIsPrecise : Obligations.CommunicationFailureIsPrecise := by
  intro s c rest hi hsch ha
  obtain ⟨-, f, hf, hl⟩ := answered_of_inv hi ha
  obtain ⟨i, hA, hstep⟩ := step_answered hsch hf ha hl
  obtain ⟨sample, draws, hexec⟩ := exec_err (s := { s with schedule := rest }) hA hf ha
  have hrun := running_of_inv hi (by intro h0; rw [h0] at hf; cases hf)
  exact ⟨_, hstep.trans hexec,
    rfl, rfl, rfl, rfl, rfl, rfl, rfl, rfl, hrun.valid, hrun.res, rfl, rfl, rfl, rfl, rfl, rfl,
    rfl, rfl, rfl, rfl⟩

/-! ### The oracle's step: R131, R132 -/

theorem decodeAnswer_dataNackOnRead {f : Frame} (hf : f = .rdStatus ∨ f = .rdSample) :
    decodeAnswer f (.err .dataNack) = .rejected .dataNackOnRead := by
  rcases hf with rfl | rfl <;> rfl

theorem decodeAnswer_wrongLength {f : Frame} {data : List Byte} (h : data.length ≠ deviceBytes f) :
    decodeAnswer f (.ok data) = .rejected .wrongLength := by
  simp [decodeAnswer, answerFits, h]

theorem step_busAnswer_rejected {f : Frame} {a : Answer} {err : DecodeError} {rest : List Event}
    (hsch : s.schedule = .busAnswer a :: rest) (hf : s.inFlight = some f) (hd : decodeAnswer f a = .rejected err) :
    step s = .refused (.undecodable err) := by
  rw [step_cons hsch]
  simp [runEvent, busAnswer, hf, hd]

/-- Settles O47: neither answer decodes, each with its own error. -/
theorem answersOffTheListRefused : Obligations.AnswersOffTheListRefused := fun _ _ _ hf =>
  ⟨fun hread hsch => step_busAnswer_rejected hsch hf (decodeAnswer_dataNackOnRead hread),
    fun _ hlen hsch => step_busAnswer_rejected hsch hf (decodeAnswer_wrongLength hlen)⟩

theorem step_busAnswer_listed {f : Frame} {a : Answer} {rest : List Event} (hsch : s.schedule = .busAnswer a :: rest)
    (hf : s.inFlight = some f) (ha : answerListed f a = true) :
    step s = .next (receive f a { s with schedule := rest }) := by
  rw [step_cons hsch]
  exact busAnswer_listed (s := { s with schedule := rest }) hf ha

theorem answerListed_of {f : Frame} {a : Answer} (hok : ∀ data, a = .ok data → data.length = deviceBytes f)
    (herr : a = .err .dataNack → f = .wrSoftreset ∨ f = .wrTrigger) : answerListed f a = true := by
  cases a with
  | ok data => exact decide_eq_true (hok data rfl)
  | err c =>
    cases c with
    | addrNack => rfl
    | dataNack => rcases herr rfl with rfl | rfl <;> rfl
    | busError => rfl

/-- Settles O17: the premises say that the answer is on the closed list, so the step is `receive`. -/
theorem oracleAnswersTransactionInFlight : Obligations.OracleAnswersTransactionInFlight :=
  fun _ _ _ _ hsch hf hok herr => step_busAnswer_listed hsch hf (answerListed_of hok herr)

/-! ### A block reset: R220 -/

/-- Settles O51: the registers read as at reset because none of them shows the fields in which the states differ. -/
theorem blockResetInAnyState : Obligations.BlockResetInAnyState := by
  intro s rest hsch
  refine ⟨Config.freeSample s.draws, abandoned s ++ s.history, blockReset { s with schedule := rest },
    step_cons hsch, rfl,
    fun hf => by simp [abandoned, hf], fun f hf => by simp [abandoned, hf], fun r => ?_, rfl, rfl⟩
  cases r <;> rfl

/-! ### irq: R46, R199 -/

/-- The sequencer's step leaves the host's flag and enables alone. -/
theorem move_sequencer_keeps (hm : Move s .sequencer t) :
    t.rej = s.rej ∧ t.doneIe = s.doneIe ∧ t.rejIe = s.rejIe := by
  cases hm with
  | calRead st hs ha =>
    exact ⟨(calReadStep_keeps st s).rej, (calReadStep_keeps st s).doneIe, (calReadStep_keeps st s).rejIe⟩
  | busyRead st hs ha =>
    exact ⟨(busyReadStep_keeps st s).rej, (busyReadStep_keeps st s).doneIe, (busyReadStep_keeps st s).rejIe⟩
  | _ => exact ⟨rfl, rfl, rfl⟩

/-- Settles O48: a command's end sets DONE and a rejected write sets REJ, each with its enable kept; a STATUS write with
both bits clears both. -/
theorem interruptFollowsFlags : Obligations.InterruptFollowsFlags := by
  intro s t hstep
  refine ⟨fun hs ht hr hie => ?_, fun v rest hsch hv hs hie => ?_, fun v rest hsch h1 h2 => ?_⟩
  · rcases step_next_cases hstep with ⟨-, rfl⟩ | ⟨e, rest, hsch, hm⟩
    · exact absurd ht hs
    obtain ⟨rfl, hd⟩ := move_ends hm hs ht (by rintro rfl; exact hr rest hsch)
    obtain ⟨-, hdoneIe, -⟩ := move_sequencer_keeps hm
    have hie' : t.doneIe = true := hdoneIe.trans hie
    simp [irq, hd, hie']
  · rw [step_ctrlWrite_of_rejected hsch hv (.inl hs)] at hstep
    cases hstep
    simp [irq, hie]
  · rw [step_hostWrite hsch rfl, writeEffect_status, h1, h2] at hstep
    cases hstep
    simp [irq]

end Sys2Proof.Machine

/-! ### Host accesses: R61, R63, R80 -/

namespace Sys2Proof.Machine

/-- Settles O5: the meaning of a command word is written in terms of its code alone. -/
theorem commandWordBitsAboveCmdIgnored : Obligations.CommandWordBitsAboveCmdIgnored := by
  intro s v w rest h
  rw [step_ctrlWrite (s := { s with schedule := .hostWrite 0x00#6 4 v :: rest }) rfl,
    step_ctrlWrite (s := { s with schedule := .hostWrite 0x00#6 4 w :: rest }) rfl, exec_decodeCommand,
    exec_decodeCommand, h]

/-- Every write effect answers a next state. -/
theorem writeEffect_next {off : BitVec 6} (ha : off.toNat % 4 = 0) (v : Word) (s : State) :
    ∃ t, writeEffect off v s = .next t := by
  rcases off_cases off ha with rfl | rfl | rfl | ⟨-, -, -, hw⟩
  · rw [writeEffect_ctrl, exec_decodeCommand]
    split_ifs <;> exact ⟨_, rfl⟩
  · exact ⟨_, writeEffect_status v s⟩
  · exact ⟨_, writeEffect_intEn v s⟩
  · exact ⟨_, hw v s⟩

/-- Settles O10: both accesses test `accessDefined` first, and past it a read and every write effect answer next. -/
theorem undefinedAccessFaults : Obligations.UndefinedAccessFaults := by
  refine fun s off width v rest => ⟨fun h => ?_, fun hw ha => ?_⟩
  · have hu : ¬ accessDefined off width = true := by rwa [accessDefined_iff]
    exact ⟨if_neg hu, if_neg hu⟩
  · have hd : accessDefined off width = true := (accessDefined_iff off width).2 ⟨hw, ha⟩
    obtain ⟨t, ht⟩ := writeEffect_next ha v (written { s with schedule := rest })
    exact ⟨⟨_, if_pos hd⟩, ⟨t, (if_pos hd).trans ht⟩⟩

/-- The offsets of a register's four bytes lie in the register, in order (R21, R63). -/
theorem regAt_offset_add (r : Reg) {k : Nat} (hk : k < 4) :
    regAt (r.offset + BitVec.ofNat 6 k) = r ∧ (r.offset + BitVec.ofNat 6 k).toNat % 4 = k := by
  interval_cases k <;> cases r <;> exact ⟨rfl, rfl⟩

/-- Settles O11: byte `k` of the register is bits `8k` to `8k + 7`. -/
theorem windowIsLittleEndian : Obligations.WindowIsLittleEndian := by
  intro s r k j hk hj
  obtain ⟨hreg, hbyte⟩ := regAt_offset_add r hk
  rw [windowByte, hreg, hbyte, BitVec.getLsbD_extractLsb', decide_eq_true hj, Bool.true_and]

end Sys2Proof.Machine

/-! ### Steps that are not enabled, and the end of a wait: R130, R133, R136 to R146 -/

namespace Sys2Proof.Machine

theorem not_answeredWith {q : SeqState} {a : Answer} {s : State} (h : s.seq ≠ q ∨ s.answer ≠ some a) :
    ¬ answeredWith q a s = true := by
  rw [answeredWith_iff, not_and_or]
  exact h

/-- Settles O18: each instruction tests `answeredWith` for its states, and each agent's step its own enabling. -/
theorem answerNeedsItsTransaction : Obligations.AnswerNeedsItsTransaction := by
  refine ⟨fun s => ⟨fun a h => if_neg (not_answeredWith h), fun a h => if_neg (not_answeredWith h), fun a h => ?_,
    fun a h => if_neg (not_answeredWith h)⟩,
    fun s rest => ⟨fun a hsch hf => ?_, fun hsch hw => ?_, fun hsch ha he => ?_⟩⟩
  · have hcal : s.seq ≠ .calRd ∨ s.answer ≠ some (answerOfStatus a) := h.imp_left And.left
    have hbusy : s.seq ≠ .busyRd ∨ s.answer ≠ some (answerOfStatus a) := h.imp_left And.right
    exact (if_neg (not_answeredWith hcal)).trans (if_neg (not_answeredWith hbusy))
  · rw [step_cons hsch]
    simp [runEvent, busAnswer, hf]
  · rw [step_cons hsch]
    simp [runEvent, timerExpires, hw]
  · rw [step_cons hsch]
    exact sequencerStep_notCompleted (by simp [actionCompleted, ha, he])

theorem sequencerStep_of_expired {s : State} (he : s.expired = true) :
    (s.seq = .resetWait ∨ s.seq = .calWait → sequencerStep s = .next (startCalRead s)) ∧
    (s.seq = .trigWait ∨ s.seq = .busyWait → sequencerStep s = .next (startBusyRead s)) := by
  constructor <;> rintro (hs | hs) <;> simp [sequencerStep, waitOver, SeqState.frame, hs, he]

/-- Settles O19: the timer's step is `expire`, and the sequencer's is `startCalRead` or `startBusyRead`. -/
theorem waitExpiryStartsRead : Obligations.WaitExpiryStartsRead := by
  refine ⟨fun s rest hsch hw => ?_, fun s rest hsch he => ?_⟩
  · rw [step_cons hsch]
    simp [runEvent, timerExpires, expire, Option.isSome_iff_ne_none, hw]
  · obtain ⟨hcal, hbusy⟩ := sequencerStep_of_expired (s := { s with schedule := rest }) he
    rw [step_cons hsch]
    exact ⟨hcal, hbusy⟩

end Sys2Proof.Machine

/-! ### Extraction and conversion: 42_extract_convert.md -/

namespace Sys2Proof.Machine

/-- Settles O27: the field as a number. -/
theorem extractAssemblesField : Obligations.ExtractAssemblesField := fun d1 d2 d3 d4 d5 _ =>
  ⟨extract d1 d2 d3 d4 d5, rfl, toNat_extract d1 d2 d3 d4 d5⟩

/-- The source's shifts and ors of bytes are sums, because the shifted parts do not overlap. -/
theorem shiftLeft_or_shiftLeft_or (a : Nat) {b c m n : Nat} (hb : b < 2 ^ m) (hc : c < 2 ^ n) :
    a <<< (m + n) ||| b <<< n ||| c = (a * 2 ^ m + b) * 2 ^ n + c := by
  rw [Nat.shiftLeft_add, ← Nat.shiftLeft_or_distrib, ← Nat.shiftLeft_add_eq_or_of_lt hb,
    ← Nat.shiftLeft_add_eq_or_of_lt hc, Nat.shiftLeft_eq, Nat.shiftLeft_eq]

/-- Settles O28: the codes of a field, and on bytes the sums that the source's formulas are. -/
theorem extractedCodes : Obligations.ExtractedCodes := by
  refine ⟨fun f40 s => ⟨extractHum f40, extractTemp f40, rfl, toNat_extractHum f40, rfl, toNat_extractTemp f40⟩,
    fun d1 d2 d3 d4 d5 => ⟨?_, ?_⟩⟩
  · have hd3 : d3.toNat >>> 4 < 2 ^ 4 := by rw [Nat.shiftRight_eq_div_pow]; omega
    rw [shiftLeft_or_shiftLeft_or (m := 8) _ d2.isLt hd3, toNat_extractHum_extract, Nat.shiftRight_eq_div_pow]
    omega
  · rw [shiftLeft_or_shiftLeft_or (m := 8) _ d4.isLt d5.isLt, toNat_extractTemp_extract,
      Nat.and_two_pow_sub_one_eq_mod (n := 4)]
    omega

/-- A code is below 2^20, as a rational. -/
theorem code_bounds (c : BitVec 20) : (0 : ℚ) ≤ c.toNat ∧ (c.toNat : ℚ) < 2 ^ 20 :=
  ⟨Nat.cast_nonneg _, by exact_mod_cast c.isLt⟩

/-- Settles O29: the exact value, and its range from the code's. -/
theorem humidityIsExact : Obligations.HumidityIsExact := by
  intro hc s
  obtain ⟨hlow, hhigh⟩ := code_bounds hc
  refine ⟨convHum hc, rfl, dyadic_convHum hc, ?_, ?_⟩ <;> rw [dyadic_convHum]
  · positivity
  · rw [div_lt_iff₀ (by norm_num)]; linarith

/-- Settles O30: the exact value, its range from the code's, and its sign from the code 0x40000, whose value is zero. -/
theorem temperatureIsExact : Obligations.TemperatureIsExact := by
  intro tc s
  obtain ⟨hlow, hhigh⟩ := code_bounds tc
  refine ⟨convTemp tc, rfl, dyadic_convTemp tc, ?_⟩
  rw [dyadic_convTemp, ← BitVec.toNat_inj]
  refine ⟨by linarith, by linarith, ⟨fun h => ?_, fun h => ?_⟩, ⟨fun h => ?_, fun h => ?_⟩⟩
  · have : (tc.toNat : ℚ) < 0x40000 := by linarith
    exact_mod_cast this
  · have : (tc.toNat : ℚ) < 0x40000 := by exact_mod_cast h
    linarith
  · have : (tc.toNat : ℚ) = 0x40000 := by linarith
    exact_mod_cast this
  · rw [h]; norm_num

/-- Settles O31: the word's value, and the fields of a word that is not zero. -/
theorem binaryEncodingIsExact : Obligations.BinaryEncodingIsExact := by
  intro m s hm
  refine ⟨f64 m, rfl, binary64Value_f64 hm, fun h0 => by rw [h0]; rfl, fun h0 => ⟨f64_sign h0, ?_⟩⟩
  obtain ⟨hp, -, -⟩ := natAbs_scaled_bounds h0 hm
  rw [f64_exponent h0 hm]
  omega

/-- Settles O32: the scaled codes as integers, and the words' values; the examples are closed evaluations. -/
theorem convertedWords : Obligations.ConvertedWords := by
  refine ⟨fun c => ?_, fun c s => ⟨convHum64 c, convTemp64 c, rfl, convHum64_eq c, binary64Value_convHum64 c, rfl,
    convTemp64_eq c, binary64Value_convTemp64 c⟩, by decide, by decide, by decide, by decide, by decide⟩
  have hlt := c.isLt
  simp only [convHum, convTemp, Config.humScale, Config.tempScale, Config.tempOffset, Config.codeRange]
  omega

/-- Equal words come from equal codes: they stand for equal values. -/
theorem convHum64_injective {a b : BitVec 20} (h : convHum64 a = convHum64 b) : a = b := by
  have hval := congrArg binary64Value h
  rw [binary64Value_convHum64, binary64Value_convHum64] at hval
  have : (a.toNat : ℚ) = b.toNat := by linarith
  exact BitVec.eq_of_toNat_eq (by exact_mod_cast this)

theorem convTemp64_injective {a b : BitVec 20} (h : convTemp64 a = convTemp64 b) : a = b := by
  have hval := congrArg binary64Value h
  rw [binary64Value_convTemp64, binary64Value_convTemp64] at hval
  have : (a.toNat : ℚ) = b.toNat := by linarith
  exact BitVec.eq_of_toNat_eq (by exact_mod_cast this)

/-- Settles O33: both values are linear in the code, with a positive slope. -/
theorem conversionsAreMonotone : Obligations.ConversionsAreMonotone := by
  refine ⟨fun a b h => ?_, fun a b h => ?_, fun a b => ⟨convHum64_injective, convTemp64_injective⟩⟩
  · have hq : (a.toNat : ℚ) < b.toNat := by exact_mod_cast h
    rw [dyadic_convHum, dyadic_convHum, dyadic_convTemp, dyadic_convTemp]
    constructor <;> linarith
  · have hq : (b.toNat : ℚ) = a.toNat + 1 := by exact_mod_cast h
    rw [dyadic_convHum, dyadic_convHum, dyadic_convTemp, dyadic_convTemp, hq]
    constructor <;> ring

end Sys2Proof.Machine

/-! ### Fixed words, frames on the wire, and the step: R81 to R89, R110 to R112, R130, R239 -/

namespace Sys2Proof.Machine

/-- Settles O58: eight closed evaluations of the decoder. -/
theorem specWordsDecode : Obligations.SpecWordsDecode := by
  unfold Obligations.SpecWordsDecode
  decide

/-- Settles O60: the wire form and the length of each of the four frames, by evaluation. -/
theorem framesOnTheWire : Obligations.FramesOnTheWire :=
  ⟨rfl, rfl, fun _ => rfl, fun _ _ _ _ _ _ => rfl, rfl, rfl, rfl, rfl⟩

theorem runBytes_of_decode {f : Format} {bytes : List Byte} {i : Instr} (h : decode f bytes = .ok i) (s : State) :
    runBytes f bytes s = exec i s := by
  rw [runBytes, h]

/-- A STATUS word is an instruction only with one of its W1C bits set. -/
theorem w1c_of_decode {v : Word} {i : Instr} (h : decode .hstw (leBytes v) = .ok i) :
    (v.getLsbD 1 || v.getLsbD 2) = true := by
  by_contra hno
  rw [Bool.not_eq_true, Bool.or_eq_false_iff] at hno
  obtain ⟨h1, h2⟩ := hno
  rw [decode_hstw, decodeStatusWrite, h1, h2] at h
  cases h

/-- A host word that is an instruction of its register has the effect of that instruction. -/
theorem writeEffect_of_decode {off : BitVec 6} {f : Format} {v : Word} {i : Instr}
    (hoff : (off = 0x00#6 ∧ f = .hcmd) ∨ (off = 0x04#6 ∧ f = .hstw) ∨ (off = 0x38#6 ∧ f = .hiew))
    (h : decode f (leBytes v) = .ok i) (s : State) : writeEffect off v s = exec i s := by
  rcases hoff with ⟨rfl, rfl⟩ | ⟨rfl, rfl⟩ | ⟨rfl, rfl⟩
  · exact runBytes_of_decode h s
  · exact (if_pos (w1c_of_decode h)).trans (runBytes_of_decode h s)
  · exact runBytes_of_decode h s

/-- Settles O59: in each clause the event's bytes are those that decode to the instruction. -/
theorem stepRunsDecodedInstruction : Obligations.StepRunsDecodedInstruction := by
  refine ⟨fun s off f v rest i hoff hsch h => ?_, fun s f a rest i hsch hf ha hlen h => ?_,
    fun s op bytes rest i hsch h => ?_⟩
  · have hal : off.toNat % 4 = 0 := by rcases hoff with ⟨rfl, -⟩ | ⟨rfl, -⟩ | ⟨rfl, -⟩ <;> rfl
    rw [step_hostWrite hsch hal, writeEffect_of_decode hoff h]
  · have hfits : answerFits f a = true := by
      cases a with
      | ok data => exact decide_eq_true (hlen data rfl)
      | err c => rfl
    rw [step_cons hsch]
    simp only [runEvent, sequencerStep, hf, ha, decodeAnswer, hfits, if_true, h]
  · rw [step_cons hsch]
    exact runBytes_of_decode h _

end Sys2Proof.Machine

/-! ### What an ended command has issued: R149 -/

namespace Sys2Proof.Machine

variable {s : State}

/-- An error recorded in RESET_WR has no status read before it (R191). -/
theorem calPolls_of_phase_resetWr (hr : errorRecorded s) (hp : s.err.phase = .resetWr) : s.calPolls.toNat = 0 := by
  cases hk : s.err.kind <;> simp_all [errorRecorded]

/-- An error recorded in TRIG_WR has no busy read before it. -/
theorem busyPolls_of_phase_trigWr (hr : errorRecorded s) (hp : s.err.phase = .trigWr) : s.busyPolls.toNat = 0 := by
  cases hk : s.err.kind <;> simp_all [errorRecorded]

/-- In DATA_RD the only error is a communication failure. -/
theorem kind_of_phase_dataRd (hr : errorRecorded s) (hp : s.err.phase = .dataRd) : s.err.kind = .comm := by
  cases hk : s.err.kind <;> simp_all [errorRecorded]

theorem calPolls_of_calFailed (hr : errorRecorded s) (hk : s.err.kind = .calFailed) : s.calPolls.toNat = 10 := by
  simp only [errorRecorded, hk] at hr
  exact hr.2.2.1

theorem busyPolls_of_stillBusy (hr : errorRecorded s) (hk : s.err.kind = .stillBusy) :
    s.busyPolls.toNat = 10 ∧ s.err.phase = .busyRd := by
  simp only [errorRecorded, hk] at hr
  exact ⟨hr.2.2.1, hr.2.1⟩

/-- An ended command has issued its sample read if it has a Measurement or failed in DATA_RD. -/
theorem sampleIssued_of_idle (hi : Inv s) (hs : s.seq = .idle) :
    sampleIssued s = true ↔ s.valid = true ∨ s.err.phase = .dataRd := by
  rw [sampleIssued_iff, hs]
  have := kind_of_phase_dataRd hi.consistent.error
  tauto

theorem issued_rdSample_of_idle (hi : Inv s) (hc : Counted s) (hs : s.seq = .idle) :
    issued .rdSample s = if s.valid = true ∨ s.err.phase = .dataRd then 1 else 0 := by
  rw [hc.sample_reads]
  exact if_congr (sampleIssued_of_idle hi hs) rfl rfl

/-- A command with no MEASURE part has neither a Measurement nor an error of DATA_RD. -/
theorem not_sampleIssued_of_init (hi : Inv s) (hcmd : s.curCmd = some .init) :
    ¬ (s.valid = true ∨ s.err.phase = .dataRd) := by
  rintro (hv | hp)
  · obtain ⟨-, -, -, hm | hm⟩ := hi.spec.valid_means hv <;> rw [hcmd] at hm <;> cases hm
  · have hr := hi.consistent.error
    simp [errorRecorded, kind_of_phase_dataRd hr hp, hp, hasMeasurePart, hcmd] at hr

theorem ended_init (hi : Inv s) (hc : Counted s) (hs : s.seq = .idle) (hcmd : s.curCmd = some .init) :
    issued .wrSoftreset s = 1 ∧ issued .wrTrigger s = 0 ∧ issued .rdSample s = 0 ∧
      issued .rdStatus s = s.calPolls.toNat ∧ s.calPolls.toNat ≤ 10 ∧
      (s.err.phase = .resetWr → s.calPolls.toNat = 0) ∧ (s.err.phase ≠ .resetWr → 1 ≤ s.calPolls.toNat) ∧
      (s.err.kind = .calFailed → issued .rdStatus s = 10) := by
  have hreads : issued .rdStatus s = s.calPolls.toNat := by
    rw [hc.status_reads, hi.consistent.init_polls hcmd, Nat.add_zero]
  refine ⟨by rw [hc.soft_resets, hcmd]; rfl, by rw [hc.triggers, hcmd]; rfl, ?_, hreads, hi.spec.polls_bounded.1,
    calPolls_of_phase_resetWr hi.consistent.error, fun hp => ?_, fun hk => ?_⟩
  · rw [issued_rdSample_of_idle hi hc hs, if_neg (not_sampleIssued_of_init hi hcmd)]
  · exact hi.consistent.cal_started (.inl hcmd) (by simp [hs]) (by simp [hs]) hp
  · rw [hreads, calPolls_of_calFailed hi.consistent.error hk]

theorem ended_measure (hi : Inv s) (hc : Counted s) (hs : s.seq = .idle) (hcmd : s.curCmd = some .measure) :
    issued .wrSoftreset s = 0 ∧ issued .wrTrigger s = 1 ∧ issued .rdStatus s = s.busyPolls.toNat ∧
      s.busyPolls.toNat ≤ 10 ∧ (s.err.phase = .trigWr → s.busyPolls.toNat = 0) ∧
      (s.err.kind = .stillBusy → issued .rdStatus s = 10 ∧ issued .rdSample s = 0) := by
  have hreads : issued .rdStatus s = s.busyPolls.toNat := by
    rw [hc.status_reads, hi.consistent.measure_polls hcmd, Nat.zero_add]
  refine ⟨by rw [hc.soft_resets, hcmd]; rfl, by rw [hc.triggers, hcmd]; rfl, hreads, hi.spec.polls_bounded.2,
    busyPolls_of_phase_trigWr hi.consistent.error, fun hk => ?_⟩
  obtain ⟨hten, hphase⟩ := busyPolls_of_stillBusy hi.consistent.error hk
  have hflag : errFlag s = true := by
    rw [← Bool.not_eq_false, errFlag_eq_false_iff, hk]; decide
  have hvalid := (hi.spec.err_means hflag).2
  exact ⟨hreads.trans hten, by simp [issued_rdSample_of_idle hi hc hs, hvalid, hphase]⟩

theorem ended_valid (hi : Inv s) (hc : Counted s) (hs : s.seq = .idle) (hv : s.valid = true) :
    issued .wrTrigger s = 1 ∧ issued .rdSample s = 1 ∧ 1 ≤ s.busyPolls.toNat ∧
      issued .rdStatus s = s.calPolls.toNat + s.busyPolls.toNat := by
  obtain ⟨-, -, hcal, hcmd⟩ := hi.spec.valid_means hv
  refine ⟨?_, ?_, (hi.consistent.valid_polls hv).1, hc.status_reads⟩
  · rcases hcmd with hcmd | hcmd <;> rw [hc.triggers, hcmd, hcal] <;> rfl
  · rw [issued_rdSample_of_idle hi hc hs, if_pos (.inl hv)]

theorem ended_read (hi : Inv s) (hc : Counted s) (hcmd : s.curCmd = some .read) :
    issued .wrSoftreset s = 1 ∧ issued .wrTrigger s = (if s.calOk then 1 else 0) ∧
      issued .rdStatus s = s.calPolls.toNat + s.busyPolls.toNat ∧ (s.calOk = false → s.busyPolls.toNat = 0) := by
  refine ⟨by rw [hc.soft_resets, hcmd]; rfl, by rw [hc.triggers, hcmd]; rfl, hc.status_reads, fun hcal => ?_⟩
  by_contra hpos
  have := hi.spec.busy_polls_calibrated (Nat.pos_of_ne_zero hpos)
  rw [hcal] at this
  cases this

/-- Settles O55: the counts of the invariant, with what the record of an error says of the polls. -/
theorem endedCommandTransactions : Obligations.EndedCommandTransactions := fun _ hi hc hs =>
  ⟨ended_init hi hc hs, ended_measure hi hc hs, fun _ => issued_rdSample_of_idle hi hc hs, ended_valid hi hc hs,
    ended_read hi hc⟩

end Sys2Proof.Machine

/-! ### A host access beside a step of another agent: R66, R115 -/

namespace Sys2Proof.Machine

/-- The fields only the host's own accesses read or write, and the schedule: `g` changes any of them. -/
structure HostEdit where
  rej : Bool → Bool
  doneIe : Bool → Bool
  rejIe : Bool → Bool
  reply : Option HostReply → Option HostReply
  schedule : List Event → List Event

def HostEdit.run (g : HostEdit) (s : State) : State :=
  { s with
    rej := g.rej s.rej, doneIe := g.doneIe s.doneIe, rejIe := g.rejIe s.rejIe, reply := g.reply s.reply,
    schedule := g.schedule s.schedule }

/-! What a host write leaves, and the schedule it leaves it with. -/

def HostEdit.rescheduled (l : List Event) : HostEdit := ⟨id, id, id, id, fun _ => l⟩

def HostEdit.intEnWritten (v : Word) (l : List Event) : HostEdit :=
  ⟨id, fun _ => v.getLsbD 0, fun _ => v.getLsbD 1, fun _ => some .writeDone, fun _ => l⟩

def HostEdit.rejected (l : List Event) : HostEdit :=
  ⟨fun _ => true, id, id, fun _ => some .writeDone, fun _ => l⟩

/-- The outcome with its next state changed by `g`. -/
def mapNext (g : State → State) : Host.Outcome State Fault Refusal → Host.Outcome State Fault Refusal
  | .next s => .next (g s)
  | .fault r => .fault r
  | .refused r => .refused r

theorem next_of_mapNext {g : State → State} {o : Host.Outcome State Fault Refusal} {t : State}
    (h : mapNext g o = .next t) : ∃ u, o = .next u ∧ t = g u := by
  cases o with
  | next u => cases h; exact ⟨u, rfl, rfl⟩
  | fault r => cases h
  | refused r => cases h

section

variable (g : HostEdit) (s : State)

/-! ### The other agents' steps do not see the host's fields -/

theorem calSuccess_hostEdit : calSuccess (g.run s) = g.run (calSuccess s) := by
  have hc : (g.run s).curCmd = s.curCmd := rfl
  simp only [calSuccess, hc]
  split <;> rfl

theorem calReadStep_hostEdit (a : StatusAnswer) : calReadStep a (g.run s) = g.run (calReadStep a s) := by
  cases a with
  | err c => rfl
  | ok st =>
    have hp : (g.run s).calPolls = s.calPolls := rfl
    simp only [calReadStep, hp]
    split_ifs
    · exact calSuccess_hostEdit g { s with devstat := st }
    · rfl
    · rfl

theorem busyReadStep_hostEdit (a : StatusAnswer) : busyReadStep a (g.run s) = g.run (busyReadStep a s) := by
  cases a with
  | err c => rfl
  | ok st =>
    have hp : (g.run s).busyPolls = s.busyPolls := rfl
    simp only [busyReadStep, hp]
    split_ifs <;> rfl

theorem exec_hostEdit {f : Frame} {a : Answer} {i : Instr} (hA : Answered f a i) :
    exec i (g.run s) = mapNext g.run (exec i s) := by
  cases hA <;>
    simp only [exec, execWrSoftreset, execWrTrigger, execRdStatus, execRdSample, apply_ite (mapNext g.run),
      calReadStep_hostEdit, busyReadStep_hostEdit] <;>
    rfl

theorem waitOver_hostEdit : waitOver (g.run s) = g.run (waitOver s) := by
  have he : (g.run s).expired = s.expired := rfl
  have hs : (g.run s).seq = s.seq := rfl
  simp only [waitOver, he, hs]
  split
  · split <;> rfl
  · rfl

theorem sequencerStep_hostEdit : sequencerStep (g.run s) = mapNext g.run (sequencerStep s) := by
  have hs : (g.run s).seq = s.seq := rfl
  have ha : (g.run s).answer = s.answer := rfl
  simp only [sequencerStep, hs, ha]
  split
  · split
    · split
      case h_1 i hi => exact exec_hostEdit g s (decodeAnswer_cases hi).2
      case h_2 => rfl
    · rfl
  · exact congrArg Host.Outcome.next (waitOver_hostEdit g s)

theorem timerExpires_hostEdit : timerExpires (g.run s) = g.run (timerExpires s) := by
  have hw : (g.run s).wait = s.wait := rfl
  simp only [timerExpires, hw]
  split <;> rfl

theorem busAnswer_hostEdit (a : Answer) : busAnswer a (g.run s) = mapNext g.run (busAnswer a s) := by
  have hf : (g.run s).inFlight = s.inFlight := rfl
  simp only [busAnswer, hf]
  split
  · split <;> rfl
  · rfl

/-- A step of the oracle, the timer or the sequencer. -/
theorem runEvent_hostEdit {e : Event} (he : e = .sequencer ∨ e = .timerExpires ∨ ∃ a, e = .busAnswer a) :
    runEvent e (g.run s) = mapNext g.run (runEvent e s) := by
  rcases he with rfl | rfl | ⟨a, rfl⟩
  · exact sequencerStep_hostEdit g s
  · exact congrArg Host.Outcome.next (timerExpires_hostEdit g s)
  · exact busAnswer_hostEdit g s a

end

/-! ### The two orders -/

section

variable {s t : State} {rest : List Event}

theorem runSteps_two {u : State} (h : step s = .next u) : runSteps 2 s = runSteps 1 u := runSteps_succ h

theorem runSteps_one (s : State) : runSteps 1 s = step s := by
  rw [runSteps]
  cases step s <;> rfl

def withSchedule (l : List Event) (s : State) : State := { s with schedule := l }

theorem step_withSchedule (e : Event) (l : List Event) (s : State) :
    step (withSchedule (e :: l) s) = runEvent e (withSchedule l s) := step_cons rfl

theorem step_intEnWrite (v : Word) (l : List Event) (s : State) :
    step (withSchedule (.hostWrite 0x38#6 4 v :: l) s) = .next ((HostEdit.intEnWritten v l).run s) := by
  rw [step_hostWrite (s := withSchedule _ s) rfl rfl, writeEffect_intEn]; rfl

/-- A step of another agent after an edit of the host's fields that leaves `rest` to come. -/
theorem step_agent {e : Event} (he : e = .sequencer ∨ e = .timerExpires ∨ ∃ a, e = .busAnswer a) {g : HostEdit}
    (hg : (g.run s).schedule = rest) :
    step (withSchedule (e :: rest) (g.run s)) = mapNext g.run (runEvent e s) := by
  subst hg
  exact (step_withSchedule e _ _).trans (runEvent_hostEdit g s he)

theorem step_agent_first {e : Event} (he : e = .sequencer ∨ e = .timerExpires ∨ ∃ a, e = .busAnswer a) :
    step (withSchedule (e :: rest) s) = mapNext (withSchedule rest) (runEvent e s) :=
  step_agent he (g := .rescheduled rest) rfl

/-- The first statement: in both orders the state is the agent's, with the enables written. -/
theorem intEnWrite_beside_agent {e : Event} {v : Word} (he : e = .sequencer ∨ e = .timerExpires ∨ ∃ a, e = .busAnswer a)
    (h : runSteps 2 (withSchedule (.hostWrite 0x38#6 4 v :: e :: rest) s) = .next t) :
    runSteps 2 (withSchedule (e :: .hostWrite 0x38#6 4 v :: rest) s) = .next t := by
  have hafter : step ((HostEdit.intEnWritten v (e :: rest)).run s) =
      mapNext (HostEdit.intEnWritten v rest).run (runEvent e s) :=
    step_agent he (g := .intEnWritten v rest) rfl
  rw [runSteps_two (step_intEnWrite v _ s), runSteps_one, hafter] at h
  obtain ⟨u, hu, rfl⟩ := next_of_mapNext h
  have hagent : step (withSchedule (e :: .hostWrite 0x38#6 4 v :: rest) s) =
      .next (withSchedule (.hostWrite 0x38#6 4 v :: rest) u) := by
    rw [step_agent_first he, hu]; rfl
  rw [runSteps_two hagent, runSteps_one, step_intEnWrite]

/-- The sequencer's step does not depend on what is scheduled after it. -/
theorem sequencerStep_of_step (h : step (withSchedule (.sequencer :: rest) s) = .next t) :
    ∃ u, sequencerStep s = .next u ∧ t = withSchedule rest u :=
  next_of_mapNext ((step_agent_first (.inl rfl)).symm.trans h)

/-- A command written just before the step that ends the running one is rejected, and the step goes on as without it. -/
theorem command_before_end {v : Word} {c : Cmd} (h : step (withSchedule (.sequencer :: rest) s) = .next t)
    (hs : s.seq ≠ .idle) (hv : v.extractLsb' 0 3 = cmdCode (some c)) :
    runSteps 2 (withSchedule (.hostWrite 0x00#6 4 v :: .sequencer :: rest) s) =
      .next { t with rej := true, reply := some .writeDone } := by
  obtain ⟨u, hu, rfl⟩ := sequencerStep_of_step h
  have hnop : v.extractLsb' 0 3 ≠ 0#3 := by rw [hv]; cases c <;> decide
  have hwrite : step (withSchedule (.hostWrite 0x00#6 4 v :: .sequencer :: rest) s) =
      .next (withSchedule (.sequencer :: rest) ((HostEdit.rejected rest).run s)) :=
    step_ctrlWrite_of_rejected (s := withSchedule _ s) rfl hnop (.inl hs)
  rw [runSteps_two hwrite, runSteps_one]
  exact (step_agent (.inl rfl) (g := .rejected rest) rfl).trans (congrArg (mapNext _) hu)

/-- The same command written just after that step is accepted. -/
theorem command_after_end {v : Word} {c : Cmd} (h : step (withSchedule (.sequencer :: rest) s) = .next t)
    (ht : t.seq = .idle) (hv : v.extractLsb' 0 3 = cmdCode (some c)) (hc : c = .measure → t.calOk = true) :
    runSteps 2 (withSchedule (.sequencer :: .hostWrite 0x00#6 4 v :: rest) s) = .next (accept c (written t)) := by
  obtain ⟨u, hu, rfl⟩ := sequencerStep_of_step h
  have hagent : step (withSchedule (.sequencer :: .hostWrite 0x00#6 4 v :: rest) s) =
      .next (withSchedule (.hostWrite 0x00#6 4 v :: rest) u) :=
    (step_agent_first (.inl rfl)).trans (congrArg (mapNext _) hu)
  rw [runSteps_two hagent, runSteps_one]
  exact step_ctrlWrite_of_accepted (s := withSchedule _ u) rfl hv ht hc

end

/-- Settles O49: the other agents' steps commute with every edit of the host's fields; what decides on a command is
whether the sequencer is in IDLE when it is written. -/
theorem hostWriteBesideSequencerStep : Obligations.HostWriteBesideSequencerStep := by
  refine ⟨fun s e v rest t he h => intEnWrite_beside_agent he h, fun s v c rest t h hs ht hv hc =>
    ⟨⟨_, command_before_end h hs hv, rfl⟩, _, command_after_end h ht hv hc, rfl, rfl, ?_, rfl⟩⟩
  obtain ⟨u, hu, rfl⟩ := sequencerStep_of_step h
  exact (move_sequencer_keeps (sequencerStep_move hu)).1

end Sys2Proof.Machine

/-! ### Behaviours: a transaction that is never answered, and a wait that ends (R13, R133, R153) -/

namespace Sys2Proof.Machine

variable {s t : State} {e : Event} {st : Nat → State} {ev : Nat → Event}

theorem behaviour_move (hb : Behaviour st ev) (n : Nat) : Move (st n) (ev n) (st (n + 1)) := step_scheduleFirst (hb n)

theorem behaviour_inv (hb : Behaviour st ev) (h0 : Inv (st 0)) (n : Nat) : Inv (st n) := by
  induction n with
  | zero => exact h0
  | succ n ih => exact inv_move ih (behaviour_move hb n)

/-! ### An unanswered transaction -/

theorem SeqState.delay_eq_none {q : SeqState} (h : q.frame ≠ none) : q.delay = none := by
  cases q <;> simp_all [SeqState.frame, SeqState.delay]

theorem SeqState.frame_eq_none {q : SeqState} (h : q.delay ≠ none) : q.frame = none := by
  cases q <;> simp_all [SeqState.frame, SeqState.delay]

/-- With a transaction in flight a command runs, no wait is pending and the sequencer's step is not enabled (R130). -/
theorem in_flight_means (hi : Inv s) (hf : s.inFlight ≠ none) :
    s.seq ≠ .idle ∧ s.wait = none ∧ actionCompleted s = false := by
  obtain ⟨hframe, hanswer⟩ := inFlight_eq_frame hi hf
  have hn : s.seq.frame ≠ none := hframe ▸ hf
  have hd := SeqState.delay_eq_none hn
  have hw : s.wait = none := by
    by_contra hw
    exact hw ((wait_eq_delay hi hw).1.trans hd)
  exact ⟨by rintro h0; rw [h0] at hn; exact hn rfl, hw, by simp [actionCompleted, hanswer, hd]⟩

/-- What an unanswered transaction holds (R153). -/
structure Held (s t : State) : Prop where
  seq : t.seq = s.seq
  inFlight : t.inFlight = s.inFlight
  busy : t.busy = true
  done : t.done = false
  valid : t.valid = s.valid
  err : t.err = s.err
  history : t.history = s.history

theorem held_self (hi : Inv s) (hf : s.inFlight ≠ none) : Held s s := by
  have hrun := running_of_inv hi (in_flight_means hi hf).1
  exact ⟨rfl, rfl, hrun.busy, hrun.done, rfl, rfl, rfl⟩

theorem move_holds_unanswered (hi : Inv s) (hf : s.inFlight ≠ none) (hm : Move s e t) (hr : e ≠ .blockReset)
    (ha : ∀ a, e ≠ .busAnswer a) : Held s t := by
  obtain ⟨hidle, hwait, hnone⟩ := in_flight_means hi hf
  have hs := held_self hi hf
  have hseq : e = .sequencer → Held s t := by
    rintro rfl
    rcases move_sequencer hm with rfl | hc
    · exact hs
    · rw [hnone] at hc; cases hc
  cases hm with
  | acceptCmd v c hv hq hc => exact absurd hq hidle
  | statusWrite v => exact ⟨rfl, rfl, hs.busy, by simp [hs.done], rfl, rfl, rfl⟩
  | waitExpired hw => exact absurd hwait hw
  | noTransaction a | received f a => exact absurd rfl (ha a)
  | reset => exact absurd rfl hr
  | softResetAck | triggerAck | calRead | busyRead | sampleRead | sampleFailed | commFailed | calWaitOver |
    busyWaitOver =>
    exact hseq rfl
  | _ => exact ⟨rfl, rfl, hs.busy, hs.done, rfl, rfl, rfl⟩

theorem behaviour_holds_unanswered (hb : Behaviour st ev) (h0 : Inv (st 0)) (hf : (st 0).inFlight ≠ none)
    (hev : ∀ n, ev n ≠ .blockReset ∧ ∀ a, ev n ≠ .busAnswer a) (n : Nat) : Held (st 0) (st n) := by
  induction n with
  | zero => exact held_self h0 hf
  | succ n ih =>
    have hm := move_holds_unanswered (behaviour_inv hb h0 n) (by rw [ih.inFlight]; exact hf) (behaviour_move hb n)
      (hev n).1 (hev n).2
    exact ⟨hm.seq.trans ih.seq, hm.inFlight.trans ih.inFlight, hm.busy, hm.done, hm.valid.trans ih.valid,
      hm.err.trans ih.err, hm.history.trans ih.history⟩

/-- The timer steps for ever with no wait pending, and the oracle never answers. -/
theorem exists_unanswered_behaviour (hi : Inv s) (hf : s.inFlight ≠ none) : ∃ (st : Nat → State) (ev : Nat → Event),
    Behaviour st ev ∧ TimerFair st ev ∧ SequencerFair st ev ∧ st 0 = s ∧
      ∀ n, ev n ≠ .blockReset ∧ ∀ a, ev n ≠ .busAnswer a := by
  obtain ⟨-, hwait, hnone⟩ := in_flight_means hi hf
  have hstay : timerExpires s = s := by simp [timerExpires, hwait]
  refine ⟨fun _ => s, fun _ => .timerExpires, fun n => ?_, fun n _ => ⟨n, le_rfl, rfl⟩, fun n h => ?_, rfl,
    fun n => ⟨by simp, by simp⟩⟩
  · exact (step_withSchedule .timerExpires s.schedule s).trans (congrArg Host.Outcome.next hstay)
  · have hc : actionCompleted s = true := h n le_rfl
    rw [hnone] at hc; cases hc

/-- Settles O22: a step holds, so a behaviour does; and the timer's idle steps make one. -/
theorem unansweredTransactionHolds : Obligations.UnansweredTransactionHolds := by
  refine ⟨fun s t hi hf hstep hr ha => ?_, fun st ev hb h0 hf hev n => ?_, fun s => exists_unanswered_behaviour⟩
  · have hrej : ∀ v rest, s.schedule = .hostWrite 0x00#6 4 v :: rest → v.extractLsb' 0 3 ≠ 0#3 → t.rej = true := by
      intro v rest hsch hv
      rw [step_ctrlWrite_of_rejected hsch hv (.inl (in_flight_means hi hf).1)] at hstep
      cases hstep; rfl
    have hheld : Held s t := by
      rcases step_next_cases hstep with ⟨-, rfl⟩ | ⟨e, rest, hsch, hm⟩
      · exact held_self hi hf
      have hm' := move_holds_unanswered (inv_schedule hi rest) hf hm (by rintro rfl; exact hr rest hsch)
        (by rintro a rfl; exact ha a rest hsch)
      exact ⟨hm'.seq, hm'.inFlight, hm'.busy, hm'.done, hm'.valid, hm'.err, hm'.history⟩
    exact ⟨hheld.seq, hheld.inFlight, hheld.busy, hheld.done, hheld.valid, hheld.err, hheld.history, hrej⟩
  · have hheld := behaviour_holds_unanswered hb h0 hf hev n
    exact ⟨hheld.seq, hheld.inFlight, hheld.busy, hheld.done⟩

/-! ### A pending wait -/

/-- Under weak fairness, what enables a step and stays until the step or a block reset comes to one of the two. -/
theorem WeaklyFair.exists_first {enabled : State → Prop} {isStep : Event → Prop} (hf : WeaklyFair enabled isStep st ev)
    {K : State → Prop} (hen : ∀ s, K s → enabled s)
    (hkeep : ∀ k, K (st k) → ¬ isStep (ev k) → ev k ≠ .blockReset → K (st (k + 1))) {n : Nat} (hn : K (st n)) :
    ∃ m, n ≤ m ∧ (∀ k, n ≤ k → k ≤ m → K (st k)) ∧ (isStep (ev m) ∨ ev m = .blockReset) := by
  classical
  have hstays : ∀ m, n ≤ m → (∀ k, n ≤ k → k < m → ¬ (isStep (ev k) ∨ ev k = .blockReset)) → K (st m) := by
    intro m hm
    induction m, hm using Nat.le_induction with
    | base => exact fun _ => hn
    | succ m hm ih =>
      intro hno
      obtain ⟨hs, hr⟩ := not_or.1 (hno m hm (Nat.lt_succ_self m))
      exact hkeep m (ih fun k hk hlt => hno k hk (Nat.lt_succ_of_lt hlt)) hs hr
  have hex : ∃ m, n ≤ m ∧ (isStep (ev m) ∨ ev m = .blockReset) := by
    by_contra hno
    have hno' : ∀ k, n ≤ k → ¬ (isStep (ev k) ∨ ev k = .blockReset) := fun k hk h => hno ⟨k, hk, h⟩
    obtain ⟨m, hm, hs⟩ := hf n fun m hm => hen _ (hstays m hm fun k hk _ => hno' k hk)
    exact hno' m hm (.inl hs)
  obtain ⟨hm, hstop⟩ := Nat.find_spec hex
  refine ⟨Nat.find hex, hm, fun k hk hle => hstays k hk fun j hj hlt hs => ?_, hstop⟩
  exact Nat.find_min hex (lt_of_lt_of_le hlt hle) ⟨hj, hs⟩

/-- What a wait state keeps until its wait expires, and again until the sequencer steps. -/
structure WaitKept (s t : State) : Prop where
  seq : t.seq = s.seq
  wait : t.wait = s.wait
  expired : t.expired = s.expired
  calPolls : t.calPolls = s.calPolls
  busyPolls : t.busyPolls = s.busyPolls

theorem WaitKept.refl (s : State) : WaitKept s s := ⟨rfl, rfl, rfl, rfl, rfl⟩

theorem WaitKept.trans {u : State} (h : WaitKept s t) (h' : WaitKept t u) : WaitKept s u :=
  ⟨h'.seq.trans h.seq, h'.wait.trans h.wait, h'.expired.trans h.expired, h'.calPolls.trans h.calPolls,
    h'.busyPolls.trans h.busyPolls⟩

/-- A wait state is changed only by the timer, the sequencer and a block reset. -/
theorem move_keeps_wait (hd : s.seq.delay ≠ none) (hm : Move s e t) (ht : e = .timerExpires → t = s)
    (hs : e = .sequencer → t = s) (hr : e ≠ .blockReset) : WaitKept s t := by
  have hsame : t = s → WaitKept s t := by rintro rfl; exact .refl _
  cases hm with
  | acceptCmd v c hv hq hc => exact absurd (by rw [hq]; rfl) hd
  | waitExpired hw => exact hsame (ht rfl)
  | reset => exact absurd rfl hr
  | softResetAck | triggerAck | calRead | busyRead | sampleRead | sampleFailed | commFailed | calWaitOver |
    busyWaitOver =>
    exact hsame (hs rfl)
  | _ => exact ⟨rfl, rfl, rfl, rfl, rfl⟩

/-- A pending wait is kept by every step but the timer's. -/
theorem move_keeps_pending (hi : Inv s) (hw : s.wait ≠ none) (hm : Move s e t) (he : e ≠ .timerExpires)
    (hr : e ≠ .blockReset) : WaitKept s t := by
  obtain ⟨hdelay, hexp⟩ := wait_eq_delay hi hw
  have hd : s.seq.delay ≠ none := hdelay ▸ hw
  refine move_keeps_wait hd hm (fun h => absurd h he) (fun hs => ?_) hr
  subst hs
  refine (move_sequencer hm).resolve_right fun hc => ?_
  simp [actionCompleted, SeqState.frame_eq_none hd, hexp] at hc

/-- An expired wait is kept by every step but the sequencer's. -/
theorem move_keeps_expired (hd : s.seq.delay ≠ none) (hw : s.wait = none) (hm : Move s e t) (he : e ≠ .sequencer)
    (hr : e ≠ .blockReset) : WaitKept s t := by
  refine move_keeps_wait hd hm (fun ht => ?_) (fun h => absurd h he) hr
  subst ht
  cases hm with
  | noWait => rfl
  | waitExpired h => exact absurd hw h

/-- The first part: the wait stays pending until the timer expires it or a block reset comes. -/
theorem pending_until (hb : Behaviour st ev) (hfair : TimerFair st ev) (h0 : Inv (st 0)) {n : Nat}
    (hw : (st n).wait ≠ none) : ∃ m, n ≤ m ∧ (∀ k, n ≤ k → k ≤ m → WaitKept (st n) (st k)) ∧
      (ev m = .timerExpires ∨ ev m = .blockReset) := by
  refine hfair.exists_first (K := WaitKept (st n)) (fun s hs => ?_) (fun k hk ht hr => ?_) (.refl _)
  · rw [timerEnabled, hs.wait]; exact hw
  · exact hk.trans (move_keeps_pending (behaviour_inv hb h0 k) (by rw [hk.wait]; exact hw) (behaviour_move hb k) ht hr)

/-- The timer's step on a pending wait. -/
theorem move_timer_of_pending (hm : Move s .timerExpires t) (hw : s.wait ≠ none) : t = expire s := by
  cases hm with
  | noWait h => exact absurd h hw
  | waitExpired => rfl

/-- The second part: the wait stays expired until the sequencer steps or a block reset comes. -/
theorem expired_until (hb : Behaviour st ev) (hfair : SequencerFair st ev) {n : Nat} (hd : (st n).seq.delay ≠ none)
    (hw : (st n).wait = none) (hx : (st n).expired = true) : ∃ m, n ≤ m ∧
      (∀ k, n ≤ k → k ≤ m → WaitKept (st n) (st k)) ∧ (ev m = .sequencer ∨ ev m = .blockReset) := by
  refine hfair.exists_first (K := WaitKept (st n)) (fun s hs => ?_) (fun k hk ht hr => ?_) (.refl _)
  · simp [sequencerEnabled, actionCompleted, hs.seq, hs.expired, hx, Option.isSome_iff_ne_none, hd]
  · exact hk.trans (move_keeps_expired (by rw [hk.seq]; exact hd) (by rw [hk.wait, hw]) (behaviour_move hb k) ht hr)

/-- The status read that a poll's wait ends in, started and counted from the counts of `s`. -/
def ReadStarted (s t : State) : Prop :=
  t.inFlight = some .rdStatus ∧
    (s.seq = .resetWait ∨ s.seq = .calWait → t.seq = .calRd ∧ t.calPolls.toNat = s.calPolls.toNat + 1) ∧
    (s.seq = .trigWait ∨ s.seq = .busyWait → t.seq = .busyRd ∧ t.busyPolls.toNat = s.busyPolls.toNat + 1)

theorem SeqState.wait_cases {q : SeqState} (h : q.delay ≠ none) :
    (q = .resetWait ∨ q = .calWait) ∨ (q = .trigWait ∨ q = .busyWait) := by
  cases q <;> simp_all [SeqState.delay]

/-- The sequencer's step on an expired wait. -/
theorem readStarted_of_expired (hi : Inv s) (hd : s.seq.delay ≠ none) (hx : s.expired = true)
    (hstep : step (scheduleFirst .sequencer s) = .next t) : ReadStarted s t := by
  rw [step_cons rfl] at hstep
  have hstep : sequencerStep s = .next t := hstep
  obtain ⟨hcal, hbusy⟩ := sequencerStep_of_expired hx
  rcases SeqState.wait_cases hd with hs | hs
  · rw [hcal hs] at hstep
    cases hstep
    exact ⟨rfl, fun _ => ⟨rfl, (calPolls_succ hi hs).2⟩, fun h => by rcases hs with hs | hs <;> simp [hs] at h⟩
  · rw [hbusy hs] at hstep
    cases hstep
    exact ⟨rfl, fun h => by rcases hs with hs | hs <;> simp [hs] at h, fun _ => ⟨rfl, (busyPolls_succ hi hs).2⟩⟩

theorem readStarted_of_kept {u : State} (h : WaitKept s t) (hr : ReadStarted t u) : ReadStarted s u := by
  rwa [ReadStarted, ← h.seq, ← h.calPolls, ← h.busyPolls]

/-- Settles O23: the two fairness arguments, one after the other; between them the timer's step changes only the
wait. -/
theorem pendingWaitEndsUnderFairness : Obligations.PendingWaitEndsUnderFairness := by
  intro st ev hb hfair h0 n hw
  obtain ⟨m, hnm, hkept, hend⟩ := pending_until hb hfair h0 hw
  have hm := hkept m hnm le_rfl
  have hwm : (st m).wait ≠ none := by rw [hm.wait]; exact hw
  have hexpire : ev m = .timerExpires → st (m + 1) = expire (st m) := fun h =>
    move_timer_of_pending (h ▸ behaviour_move hb m) hwm
  refine ⟨⟨m, hnm, fun k hk hle => ⟨(hkept k hk hle).wait, (hkept k hk hle).seq⟩, ?_⟩, fun hseq => ?_⟩
  · refine hend.imp_left fun h => ?_
    rw [hexpire h]
    exact ⟨h, rfl, rfl, hm.seq⟩
  rcases hend with h | h
  case inr => exact ⟨m, hnm, .inl h⟩
  have hd : (st m).seq.delay ≠ none := (wait_eq_delay (behaviour_inv hb h0 m) hwm).1 ▸ hwm
  have hx := hexpire h
  obtain ⟨m', hmm', hkept', hend'⟩ := expired_until hb hseq (n := m + 1) (by rw [hx]; exact hd) (by rw [hx]; rfl)
    (by rw [hx]; rfl)
  refine ⟨m', by omega, hend'.symm.imp_right fun hs => ?_⟩
  have hm' := hkept' m' hmm' le_rfl
  rw [hx] at hm'
  have hstarted : ReadStarted (st m') (st (m' + 1)) :=
    readStarted_of_expired (behaviour_inv hb h0 m') (by rw [hm'.seq]; exact hd) (by rw [hm'.expired]; rfl) (hs ▸ hb m')
  have hsince : WaitKept (expire (st m)) (st m') := hm'
  have hn : ReadStarted (st n) (st (m' + 1)) := by
    have hr := readStarted_of_kept hsince hstarted
    rw [ReadStarted] at hr ⊢
    rwa [← hm.seq, ← hm.calPolls, ← hm.busyPolls]
  exact hn

end Sys2Proof.Machine

/-! ### Runs of a schedule, and the blocks the command schedules are made of -/

namespace Sys2Proof.Machine

variable {s t u : State} {l l' : List Event}

/-- The events `l` take `s` to `t`, whatever is scheduled after them. -/
def Runs (s : State) (l : List Event) (t : State) : Prop :=
  ∀ rest, runSteps l.length (withSchedule (l ++ rest) s) = .next (withSchedule rest t)

theorem Runs.nil (s : State) : Runs s [] s := fun _ => rfl

theorem Runs.append (h : Runs s l t) (h' : Runs t l' u) : Runs s (l ++ l') u := fun rest => by
  rw [List.length_append, List.append_assoc, runSteps_add (h _), h']

theorem Runs.runSteps (h : Runs s l t) : runSteps l.length (withSchedule l s) = .next (withSchedule [] t) := by
  simpa using h []

theorem runs_agent {e : Event} (he : e = .sequencer ∨ e = .timerExpires ∨ ∃ a, e = .busAnswer a)
    (h : runEvent e s = .next t) : Runs s [e] t := fun rest => by
  show runSteps 1 (withSchedule (e :: rest) s) = _
  rw [runSteps_one, step_agent_first he, h]; rfl

/-- `s` has just entered the state `q`: its one action is pending (R130). -/
structure Entered (q : SeqState) (s : State) : Prop where
  seq : s.seq = q
  inFlight : s.inFlight = q.frame
  wait : s.wait = q.delay

theorem entered_enter (q : SeqState) (s : State) : Entered q (enter q s) := ⟨rfl, rfl, rfl⟩

theorem runs_command {v : Word} {c : Cmd} (hs : s.seq = .idle) (hv : v.extractLsb' 0 3 = cmdCode (some c))
    (hc : c = .measure → s.calOk = true) : Runs s [.hostWrite 0x00#6 4 v] (accept c (written s)) := fun rest => by
  show runSteps 1 (withSchedule (.hostWrite 0x00#6 4 v :: rest) s) = _
  rw [runSteps_one]
  exact step_ctrlWrite_of_accepted (s := withSchedule _ s) rfl hv hs hc

theorem runs_answerThenStep {q : SeqState} {f : Frame} {data : List Byte} {i : Instr} (hq : Entered q s)
    (hf : q.frame = some f) (hd : decodeAnswer f (.ok data) = .ok i)
    (h : exec i (receive f (.ok data) s) = .next t) : Runs s (answerThenStep data) t := by
  have hlisted := (decodeAnswer_cases hd).1
  have hseq : sequencerStep (receive f (.ok data) s) = .next t := by
    rw [← h]
    simp [sequencerStep, receive, hq.seq, hf, hd]
  exact (runs_agent (.inr (.inr ⟨_, rfl⟩)) (busAnswer_listed (hq.inFlight.trans hf) hlisted)).append
    (runs_agent (.inl rfl) hseq)

theorem runs_expireThenStep (hw : s.wait ≠ none) (h : sequencerStep (expire s) = .next t) :
    Runs s expireThenStep t := by
  have htimer : timerExpires s = expire s := if_pos (Option.isSome_iff_ne_none.2 hw)
  exact (runs_agent (.inr (.inl rfl)) (congrArg Host.Outcome.next htimer)).append (runs_agent (.inl rfl) h)

theorem runs_calWait {q : SeqState} (h : Entered q s) (hq : q = .resetWait ∨ q = .calWait) :
    Runs s expireThenStep (startCalRead (expire s)) :=
  runs_expireThenStep (by rw [h.wait]; rcases hq with rfl | rfl <;> simp [SeqState.delay])
    ((sequencerStep_of_expired rfl).1 (by rwa [← h.seq] at hq))

theorem runs_busyWait {q : SeqState} (h : Entered q s) (hq : q = .trigWait ∨ q = .busyWait) :
    Runs s expireThenStep (startBusyRead (expire s)) :=
  runs_expireThenStep (by rw [h.wait]; rcases hq with rfl | rfl <;> simp [SeqState.delay])
    ((sequencerStep_of_expired rfl).2 (by rwa [← h.seq] at hq))

/-! ### The two polls on a byte, decided -/

section

variable {st : Byte}

theorem calReadStep_init (hb : st.getLsbD 3 = true) (hc : s.curCmd = some .init) :
    calReadStep (.ok st) s = finish { s with devstat := st, calOk := true } := by
  simp [calReadStep, and_maskCal_eq_zero, hb, calSuccess, hc]

theorem calReadStep_read (hb : st.getLsbD 3 = true) (hc : s.curCmd = some .read) :
    calReadStep (.ok st) s = enter .trigWr { s with devstat := st, calOk := true } := by
  simp [calReadStep, and_maskCal_eq_zero, hb, calSuccess, hc]

theorem calReadStep_again (hb : st.getLsbD 3 = false) (hn : s.calPolls.toNat < 10) :
    calReadStep (.ok st) s = enter .calWait { s with devstat := st } := by
  have hn : s.calPolls < Config.maxCalPolls := hn
  simp [calReadStep, (and_maskCal_eq_zero st).2 hb, hn]

theorem calReadStep_exhausted (hb : st.getLsbD 3 = false) (hn : s.calPolls.toNat = 10) :
    calReadStep (.ok st) s = fail .calFailed none .calRd { s with devstat := st } := by
  have hn : ¬ s.calPolls < Config.maxCalPolls := fun h => by
    have : s.calPolls.toNat < 10 := h
    omega
  simp [calReadStep, (and_maskCal_eq_zero st).2 hb, hn]

theorem busyReadStep_ready (hb : st.getLsbD 7 = false) :
    busyReadStep (.ok st) s = enter .dataRd { s with devstat := st } := by
  simp [busyReadStep, (and_maskBusy_eq_zero st).2 hb]

theorem busyReadStep_again (hb : st.getLsbD 7 = true) (hn : s.busyPolls.toNat < 10) :
    busyReadStep (.ok st) s = enter .busyWait { s with devstat := st } := by
  have hn : s.busyPolls < Config.maxBusyPolls := hn
  simp [busyReadStep, and_maskBusy_eq_zero, hb, hn]

theorem busyReadStep_exhausted (hb : st.getLsbD 7 = true) (hn : s.busyPolls.toNat = 10) :
    busyReadStep (.ok st) s = fail .stillBusy none .busyRd { s with devstat := st } := by
  have hn : ¬ s.busyPolls < Config.maxBusyPolls := fun h => by
    have : s.busyPolls.toNat < 10 := h
    omega
  simp [busyReadStep, and_maskBusy_eq_zero, hb, hn]

end

/-! ### The transactions of a command, each answered Ok -/

theorem runs_softReset (h : Entered .resetWr s) :
    Runs s (answerThenStep []) (enter .resetWait (receive .wrSoftreset (.ok []) s)) :=
  runs_answerThenStep h rfl (i := .wrSoftreset .ok) rfl (exec_wrSoftreset_ok h.seq rfl)

theorem runs_trigger (h : Entered .trigWr s) :
    Runs s (answerThenStep []) (enter .trigWait (receive .wrTrigger (.ok []) s)) :=
  runs_answerThenStep h rfl (i := .wrTrigger .ok) rfl (exec_wrTrigger_ok h.seq rfl)

theorem runs_calRead (h : Entered .calRd s) (b : Byte) :
    Runs s (answerThenStep [b]) (calReadStep (.ok b) (receive .rdStatus (.ok [b]) s)) :=
  runs_answerThenStep h rfl (i := .rdStatus (.ok b)) rfl (exec_rdStatus_of_calRd h.seq rfl)

theorem runs_busyRead (h : Entered .busyRd s) (b : Byte) :
    Runs s (answerThenStep [b]) (busyReadStep (.ok b) (receive .rdStatus (.ok [b]) s)) :=
  runs_answerThenStep h rfl (i := .rdStatus (.ok b)) rfl (exec_rdStatus_of_busyRd h.seq rfl)

theorem runs_sampleRead (h : Entered .dataRd s) (d : Sample) :
    Runs s (answerThenStep d.bytes) (finish (commit d (receive .rdSample (.ok d.bytes) s))) :=
  runs_answerThenStep h rfl (i := .rdSample (.ok d)) rfl (exec_rdSample_ok h.seq rfl)

/-- The first calibration read, from RESET_WR. -/
def firstCalRead (s : State) : State :=
  startCalRead (expire (enter .resetWait (receive .wrSoftreset (.ok []) s)))

/-- The first busy read, from TRIG_WR. -/
def firstBusyRead (s : State) : State :=
  startBusyRead (expire (enter .trigWait (receive .wrTrigger (.ok []) s)))

/-! ### Failed polls -/

/-- A status read answered `b`, as the history holds it. -/
def statusRead (b : Byte) : Txn := { frame := .rdStatus, result := .ok [b] }

/-- From `s` to `t` the poll of `q`, whose counter is `polls`, failed with `bytes` and its next read is in flight. -/
structure Polled (q : SeqState) (polls : State → BitVec 4) (s : State) (bytes : List Byte) (t : State) : Prop where
  entered : Entered q t
  count : (polls t).toNat = (polls s).toNat + bytes.length
  history : t.history = (bytes.map statusRead).reverse ++ s.history
  curCmd : t.curCmd = s.curCmd
  calOk : t.calOk = s.calOk
  valid : t.valid = s.valid
  err : t.err = s.err

section

variable {q : SeqState} {polls : State → BitVec 4}

theorem Polled.nil (h : Entered q s) : Polled q polls s [] s := ⟨h, rfl, rfl, rfl, rfl, rfl, rfl⟩

theorem Polled.cons {b : Byte} {bytes : List Byte} (h : Polled q polls s [b] t) (h' : Polled q polls t bytes u) :
    Polled q polls s (b :: bytes) u where
  entered := h'.entered
  count := by rw [h'.count, h.count, List.length_singleton, List.length_cons]; omega
  history := by rw [h'.history, h.history]; simp
  curCmd := h'.curCmd.trans h.curCmd
  calOk := h'.calOk.trans h.calOk
  valid := h'.valid.trans h.valid
  err := h'.err.trans h.err

/-- Failed polls within the budget of ten, from what one failed poll does. -/
theorem exists_runs_failedPolls {fails : Byte → Prop}
    (hpoll : ∀ {s b}, Entered q s → (polls s).toNat < 10 → fails b →
      ∃ t, Runs s (answerThenStep [b] ++ expireThenStep) t ∧ Polled q polls s [b] t) :
    ∀ (bytes : List Byte) (s : State), Entered q s → (polls s).toNat + bytes.length ≤ 10 → (∀ b ∈ bytes, fails b) →
      ∃ t, Runs s (failedPolls bytes) t ∧ Polled q polls s bytes t
  | [], s, hs, _, _ => ⟨s, .nil s, .nil hs⟩
  | b :: bytes, s, hs, hn, hb => by
    rw [List.length_cons] at hn
    obtain ⟨t, hrun, hp⟩ := hpoll hs (by omega) (hb b List.mem_cons_self)
    have hcount : (polls t).toNat = (polls s).toNat + 1 := hp.count
    obtain ⟨u, hrun', hp'⟩ := exists_runs_failedPolls hpoll bytes t hp.entered (by omega)
      fun b' h => hb b' (List.mem_cons_of_mem b h)
    exact ⟨u, hrun.append hrun', hp.cons hp'⟩

end

theorem toNat_add_one_of_lt {x : BitVec 4} (h : x.toNat < 10) : (x + 1#4).toNat = x.toNat + 1 := by
  rw [BitVec.toNat_add, BitVec.toNat_ofNat]; omega

/-- A calibration poll with bit 3 clear, within the budget. -/
theorem exists_runs_failedCalPoll {b : Byte} (h : Entered .calRd s) (hn : s.calPolls.toNat < 10)
    (hb : b.getLsbD 3 = false) :
    ∃ t, Runs s (answerThenStep [b] ++ expireThenStep) t ∧ Polled .calRd State.calPolls s [b] t := by
  have hread := runs_calRead h b
  rw [calReadStep_again (s := receive _ _ s) hb hn] at hread
  exact ⟨_, hread.append (runs_calWait (entered_enter _ _) (.inr rfl)),
    ⟨entered_enter _ _, toNat_add_one_of_lt hn, rfl, rfl, rfl, rfl, rfl⟩⟩

/-- A busy poll with bit 7 set, within the budget. -/
theorem exists_runs_failedBusyPoll {b : Byte} (h : Entered .busyRd s) (hn : s.busyPolls.toNat < 10)
    (hb : b.getLsbD 7 = true) :
    ∃ t, Runs s (answerThenStep [b] ++ expireThenStep) t ∧ Polled .busyRd State.busyPolls s [b] t := by
  have hread := runs_busyRead h b
  rw [busyReadStep_again (s := receive _ _ s) hb hn] at hread
  exact ⟨_, hread.append (runs_busyWait (entered_enter _ _) (.inr rfl)),
    ⟨entered_enter _ _, toNat_add_one_of_lt hn, rfl, rfl, rfl, rfl, rfl⟩⟩

/-! ### INIT and MEASURE up to their last poll -/

section

variable {bytes : List Byte} {last : Byte}

/-- INIT's failed polls end with the read that answers `last` still to come. -/
theorem exists_runs_initSchedule (hs : s.seq = .idle) (hlen : bytes.length < 10)
    (hb : ∀ b ∈ bytes, b.getLsbD 3 = false) : ∃ t,
      Polled .calRd State.calPolls (firstCalRead (accept .init (written s))) bytes t ∧
      Runs s (initSchedule bytes last) (calReadStep (.ok last) (receive .rdStatus (.ok [last]) t)) := by
  have hfirst := ((runs_command (v := 1#32) (c := .init) hs rfl (by simp)).append
    (runs_softReset (entered_enter _ _))).append (runs_calWait (entered_enter _ _) (.inl rfl))
  obtain ⟨t, hrun, hp⟩ := exists_runs_failedPolls (polls := State.calPolls) exists_runs_failedCalPoll bytes
    (firstCalRead (accept .init (written s))) (entered_enter _ _) (Nat.add_comm 1 _ ▸ hlen) hb
  exact ⟨t, hp, (hfirst.append hrun).append (runs_calRead hp.entered last)⟩

/-- MEASURE's failed polls likewise. -/
theorem exists_runs_measureSchedule (hs : s.seq = .idle) (hc : s.calOk = true) (hlen : bytes.length < 10)
    (hb : ∀ b ∈ bytes, b.getLsbD 7 = true) : ∃ t,
      Polled .busyRd State.busyPolls (firstBusyRead (accept .measure (written s))) bytes t ∧
      Runs s (measureSchedule bytes last) (busyReadStep (.ok last) (receive .rdStatus (.ok [last]) t)) := by
  have hfirst := ((runs_command (v := 2#32) (c := .measure) hs rfl fun _ => hc).append
    (runs_trigger (entered_enter _ _))).append (runs_busyWait (entered_enter _ _) (.inl rfl))
  obtain ⟨t, hrun, hp⟩ := exists_runs_failedPolls (polls := State.busyPolls) exists_runs_failedBusyPoll bytes
    (firstBusyRead (accept .measure (written s))) (entered_enter _ _) (Nat.add_comm 1 _ ▸ hlen) hb
  exact ⟨t, hp, (hfirst.append hrun).append (runs_busyRead hp.entered last)⟩

/-- INIT's failed polls add the reset write and the status reads to the history. -/
theorem history_of_initPolls (hp : Polled .calRd State.calPolls (firstCalRead (accept .init (written s))) bytes t) :
    t.history = (bytes.map statusRead).reverse ++ { frame := .wrSoftreset, result := .ok [] } :: s.history :=
  hp.history

/-- MEASURE's failed polls add no sample read to the history, only the trigger and the status reads. -/
theorem exists_history_of_measurePolls
    (hp : Polled .busyRd State.busyPolls (firstBusyRead (accept .measure (written s))) bytes t) :
    ∃ txns : List Txn, statusRead last :: t.history = txns ++ s.history ∧ txns.length = bytes.length + 2 ∧
      ∀ x ∈ txns, x.frame ≠ .rdSample := by
  have hhist : t.history = (bytes.map statusRead).reverse ++ { frame := .wrTrigger, result := .ok [] } :: s.history :=
    hp.history
  refine ⟨statusRead last :: ((bytes.map statusRead).reverse ++ [{ frame := .wrTrigger, result := .ok [] }]),
    ?_, ?_, ?_⟩
  · simp [hhist]
  · simp
  · simp [statusRead, or_imp, forall_and]

end

/-- Settles O24: the last poll finds bit 3 set. -/
theorem calibrationSucceedsAtNthPoll : Obligations.CalibrationSucceedsAtNthPoll := by
  intro s bytes last hs hlen hb hlast
  obtain ⟨t, hp, hrun⟩ := exists_runs_initSchedule (last := last) hs hlen hb
  rw [calReadStep_init (s := receive _ _ t) hlast hp.curCmd] at hrun
  refine ⟨_, hrun.runSteps, rfl, rfl, rfl, rfl, hp.err, hp.valid, ?_, rfl, ?_⟩
  · exact hp.count.trans (Nat.add_comm 1 _)
  · show statusRead last :: t.history = _
    rw [history_of_initPolls hp]
    simp [statusRead]

/-- Settles O25: the tenth poll finds bit 3 clear, or bit 7 set, and the budget used up. -/
theorem tenFailedPollsEndTheCommand : Obligations.TenFailedPollsEndTheCommand := by
  refine ⟨fun s bytes last hs hlen hb hlast => ?_, fun s bytes last hs hc hlen hb hlast => ?_⟩
  · obtain ⟨t, hp, hrun⟩ := exists_runs_initSchedule (last := last) hs (by omega) hb
    have hten : t.calPolls.toNat = 10 := by
      have hcount : t.calPolls.toNat = 1 + bytes.length := hp.count
      omega
    rw [calReadStep_exhausted (s := receive _ _ t) hlast hten] at hrun
    refine ⟨_, hrun.runSteps, rfl, rfl, hp.calOk, rfl, hten, rfl, ?_⟩
    show t.history.length + 1 = s.history.length + 11
    rw [history_of_initPolls hp, List.length_append, List.length_reverse, List.length_map, hlen, List.length_cons]
    omega
  · obtain ⟨t, hp, hrun⟩ := exists_runs_measureSchedule (last := last) hs hc (by omega) hb
    have hten : t.busyPolls.toNat = 10 := by
      have hcount : t.busyPolls.toNat = 1 + bytes.length := hp.count
      omega
    rw [busyReadStep_exhausted (s := receive _ _ t) hlast hten] at hrun
    obtain ⟨txns, hhist, hlength, hframes⟩ := exists_history_of_measurePolls (last := last) hp
    have heleven : txns.length = 11 := by rw [hlength, hlen]
    refine ⟨_, hrun.runSteps, rfl, rfl, hp.calOk.trans hc, rfl, hten, rfl, ?_, ?_⟩
    · show (statusRead last :: t.history).length = _
      rw [hhist, List.length_append, heleven, Nat.add_comm]
    · show ((statusRead last :: t.history).take 11).countP _ = 0
      rw [hhist, List.take_left' heleven, List.countP_eq_zero]
      simpa using hframes

/-! ### READ -/

section

variable (d1 d2 d3 d4 d5 : Byte)

theorem extractHum_extract : extractHum (extract d1 d2 d3 d4 d5) = d1 ++ d2 ++ d3.extractLsb' 4 4 := by
  apply BitVec.eq_of_toNat_eq
  rw [toNat_extractHum_extract, toNat_append_eq_add, toNat_append_eq_add, BitVec.extractLsb'_toNat,
    Nat.shiftRight_eq_div_pow]
  have := d3.isLt
  omega

theorem extractTemp_extract : extractTemp (extract d1 d2 d3 d4 d5) = d3.extractLsb' 0 4 ++ d4 ++ d5 := by
  apply BitVec.eq_of_toNat_eq
  rw [toNat_extractTemp_extract, toNat_append_eq_add, toNat_append_eq_add, BitVec.extractLsb'_toNat,
    Nat.shiftRight_zero]
  omega

end

theorem append_halves (x : BitVec 64) : x.extractLsb' 32 32 ++ x.extractLsb' 0 32 = x := by
  apply BitVec.eq_of_toNat_eq
  rw [toNat_append_eq_add, BitVec.extractLsb'_toNat, BitVec.extractLsb'_toNat, Nat.shiftRight_zero,
    Nat.shiftRight_eq_div_pow]
  have := x.isLt
  omega

/-- READ's calibration poll with bit 3 set goes on to the trigger (R139). -/
theorem runs_calibratedPoll {c : Byte} (h : Entered .calRd s) (hc : c.getLsbD 3 = true) (hcmd : s.curCmd = some .read) :
    Runs s (answerThenStep [c])
      (enter .trigWr { receive .rdStatus (.ok [c]) s with devstat := c, calOk := true }) := by
  rw [← calReadStep_read (s := receive _ _ s) hc hcmd]
  exact runs_calRead h c

/-- A busy poll with bit 7 clear goes on to the sample read (R147). -/
theorem runs_readyPoll {b : Byte} (h : Entered .busyRd s) (hb : b.getLsbD 7 = false) :
    Runs s (answerThenStep [b]) (enter .dataRd { receive .rdStatus (.ok [b]) s with devstat := b }) := by
  rw [← busyReadStep_ready (s := receive _ _ s) hb]
  exact runs_busyRead h b

/-- READ's state before its sample read: INIT's part, then MEASURE's. -/
theorem exists_runs_readSchedule {c b : Byte} (d : Sample) (hs : s.seq = .idle) (hc : c.getLsbD 3 = true)
    (hb : b.getLsbD 7 = false) : ∃ t,
      Runs s (readSchedule c b d) (finish (commit d (receive .rdSample (.ok d.bytes) t))) ∧
      t.calOk = true ∧ t.curCmd = some .read ∧ t.err = ErrorReg.zero ∧ t.calPolls = 1#4 ∧ t.busyPolls = 1#4 ∧
      t.devstat = b ∧ t.rej = s.rej ∧
      t.history = [statusRead b, { frame := .wrTrigger, result := .ok [] }, statusRead c,
        { frame := .wrSoftreset, result := .ok [] }] ++ s.history := by
  have hinit := ((runs_command (v := 3#32) (c := .read) hs rfl (by simp)).append
    (runs_softReset (entered_enter _ _))).append (runs_calWait (entered_enter _ _) (.inl rfl))
  have hmeasure := ((hinit.append (runs_calibratedPoll (entered_enter _ _) hc rfl)).append
    (runs_trigger (entered_enter _ _))).append (runs_busyWait (entered_enter _ _) (.inl rfl))
  have hsample := (hmeasure.append (runs_readyPoll (entered_enter _ _) hb)).append
    (runs_sampleRead (entered_enter _ _) d)
  exact ⟨_, hsample, rfl, rfl, rfl, rfl, rfl, rfl, rfl, rfl⟩

/-- Settles O26: the registers are the commit's, on the state the schedule reaches before the sample read. -/
theorem readRunsInitThenMeasure : Obligations.ReadRunsInitThenMeasure := by
  intro s c b d hs hc hb
  obtain ⟨t, hrun, hcal, hcmd, herr, hcp, hbp, hdev, hrej, hhist⟩ := exists_runs_readSchedule d hs hc hb
  exact ⟨_, hrun.runSteps, rfl, rfl, rfl, rfl, hcal, hcmd, herr, hcp, hbp, hdev, hrej, rfl, extractHum_extract ..,
    extractTemp_extract .., append_halves _, append_halves _, congrArg (_ :: ·) hhist⟩

end Sys2Proof.Machine
